-- ==== Sys2Proof/Word.lean ====
section
/-! DEFINITION. The word types of the block: bytes of DMEM and ACC, 16-bit halves of operand
words, 32-bit registers, and the eight-word descriptor (00_scope R10, 30_encoding R70). -/

namespace Sys2Proof

/-- A byte of DMEM, a mask byte, or the pattern of an ACC cell (00_scope R11). -/
abbrev Byte := BitVec 8

/-- Half of an operand word: a coordinate, an extent, or a DOTR mask (30_encoding R75). -/
abbrev Half := BitVec 16

/-- A command word or a register of the register port (10_state R23). -/
abbrev Word := BitVec 32

/-- The eight command words CMD[0..7] (30_encoding R70). -/
abbrev Descriptor := Vector Word 8

end Sys2Proof
end

