-- ==== Sys2Proof/Syntax.lean ====
section
/-! DEFINITION. The commands of the TBPC command set, revision 1: one constructor per row of the
opcode map (30_encoding R76), operands in the assembler's order (30_encoding R86). -/

namespace Sys2Proof

/-- The fault causes of 60_exceptions R231; their codes are `Cause.code`. -/
inductive Cause where
  | illegalOpcode
  | reservedEnc
  | cfgUnset
  | badCfg
  | notDivisible
  | dimBounds
  | addrRange
  | overlap
  | notTernary
  deriving DecidableEq, Repr

/-- The lane count W of the single-row dot, from its flag W16 (30_encoding R78). -/
inductive Lanes where
  | w8
  | w16
  deriving DecidableEq, Repr

/-- The mnemonics of the opcode map (30_encoding R76). -/
inductive Mnemonic where
  | nop | cfg | zfill
  | xposeC2R | xposeR2C | cmpr
  | packA | packAP | packB | packBP
  | tclr | tld | tst
  | mkr | mkp
  | dotrN | dotrS | dotrT
  deriving DecidableEq, Repr

/-- A decoded command. Ignored operand words (30_encoding R74, R85) are no part of it. -/
inductive Instr where
  /-- NOP (40_control R100). -/
  | nop
  /-- CFG idx, val (40_control R101). -/
  | cfg (idx val : Word)
  /-- ZFILL dst, len (40_control R103). -/
  | zfill (dst len : Word)
  /-- XPOSE.C2R src, dst, rows, cols (41_codec R120). -/
  | xposeC2R (src dst rows cols : Word)
  /-- XPOSE.R2C src, dst, rows, cols (41_codec R121). -/
  | xposeR2C (src dst rows cols : Word)
  /-- CMPR src, dv, ds, len (41_codec R122). -/
  | cmpr (src dv ds len : Word)
  /-- PACKA src, dst, row0, k0, mc, kc (42_packer R146). -/
  | packA (src dst : Word) (row0 k0 mc kc : Half)
  /-- PACKA.P sv, ss, dv, ds, row0, k0, mc, kc (42_packer R147). -/
  | packAP (sv ss dv ds : Word) (row0 k0 mc kc : Half)
  /-- PACKB src, dst, col0, k0, nc, kc (42_packer R148). -/
  | packB (src dst : Word) (col0 k0 nc kc : Half)
  /-- PACKB.P sv, ss, dv, ds, col0, k0, nc, kc (42_packer R149). -/
  | packBP (sv ss dv ds : Word) (col0 k0 nc kc : Half)
  /-- TCLR (43_accumulator R171). -/
  | tclr
  /-- TLD cbase, row0, col0 (43_accumulator R172). -/
  | tld (cbase : Word) (row0 col0 : Half)
  /-- TST cbase, row0, col0 (43_accumulator R173). -/
  | tst (cbase : Word) (row0 col0 : Half)
  /-- MKR a, b, kc (44_microkernel R191). -/
  | mkr (a b kc : Word)
  /-- MKP av, as, bv, bs, kc (44_microkernel R196). -/
  | mkp (aVal aSgn bVal bSgn kc : Word)
  /-- DOTR.N a, b, dst with W lanes (45_rowdot R211). -/
  | dotrN (w : Lanes) (a b dst : Word)
  /-- DOTR.S a, vmask, smask, dst with W lanes (45_rowdot R212). -/
  | dotrS (w : Lanes) (a : Word) (vmask smask : Half) (dst : Word)
  /-- DOTR.T a, vmask, smask, dst with W lanes (45_rowdot R213). -/
  | dotrT (w : Lanes) (a : Word) (vmask smask : Half) (dst : Word)
  deriving DecidableEq, Repr

end Sys2Proof
end

