-- ==== Sys2Proof/WellFormed.lean ====
section
/-! DEFINITION. Which `Instr` terms some descriptor can hold. Every operand word is taken whole
(30_encoding R75), so the one check is on the masks of DOTR.S and DOTR.T: only bits [W-1:0] are
part of the command (30_encoding R85). -/

namespace Sys2Proof

/-- A mask is within W lanes when its bits above W-1 are 0 (45_rowdot R212). -/
def Lanes.maskOk : Lanes → Half → Bool
  | .w8, m => decide (m.toNat < 256)
  | .w16, _ => true

/-- The operands of the command are values a descriptor can give it. -/
def Instr.wellFormed : Instr → Bool
  | .nop => true
  | .cfg _ _ => true
  | .zfill _ _ => true
  | .xposeC2R _ _ _ _ => true
  | .xposeR2C _ _ _ _ => true
  | .cmpr _ _ _ _ => true
  | .packA _ _ _ _ _ _ => true
  | .packAP _ _ _ _ _ _ _ _ => true
  | .packB _ _ _ _ _ _ => true
  | .packBP _ _ _ _ _ _ _ _ => true
  | .tclr => true
  | .tld _ _ _ => true
  | .tst _ _ _ => true
  | .mkr _ _ _ => true
  | .mkp _ _ _ _ _ => true
  | .dotrN _ _ _ _ => true
  | .dotrS w _ vmask smask _ => w.maskOk vmask && w.maskOk smask
  | .dotrT w _ vmask smask _ => w.maskOk vmask && w.maskOk smask

end Sys2Proof
end

