-- ==== Sys2Proof/Decode.lean ====
section
/-! DEFINITION. The decoder, total on every descriptor (30_encoding R81), rejecting by cause, and
after it the encoder (30_encoding R85, R86) with the pseudo-instructions (30_encoding R87). -/

namespace Sys2Proof

/-! ### Fields of a word (00_scope R10, 30_encoding R70, R75) -/

/-- OPC, CMD[0][7:0]. -/
def opcField (w : Word) : Byte := w.extractLsb' 0 8

/-- FLAGS, CMD[0][15:8]. -/
def flagsField (w : Word) : Byte := w.extractLsb' 8 8

/-- RES, CMD[0][31:16]. -/
def resField (w : Word) : Half := w.extractLsb' 16 16

/-- The low half of an operand word (30_encoding R75). -/
def loHalf (w : Word) : Half := w.extractLsb' 0 16

/-- The high half of an operand word (30_encoding R75). -/
def hiHalf (w : Word) : Half := w.extractLsb' 16 16

/-- The operand word written {hi, lo} (30_encoding R75). -/
def pairWord (hi lo : Half) : Word := hi ++ lo

/-! ### The opcode map (30_encoding R76) -/

/-- One row of the opcode map: `w` is the row's command when `w &&& mask = pattern`. -/
structure OpcodeRow where
  mnemonic : Mnemonic
  pattern : Word
  mask : Word
  deriving DecidableEq, Repr

/-- The opcode map (30_encoding R76), row by row. -/
def opcodeMap : List OpcodeRow :=
  [ ⟨.nop, 0x00000000#32, 0xFFFFFFFF#32⟩,
    ⟨.cfg, 0x00000001#32, 0xFFFFFFFF#32⟩,
    ⟨.zfill, 0x00000002#32, 0xFFFFFFFF#32⟩,
    ⟨.xposeC2R, 0x00000010#32, 0xFFFFFFFF#32⟩,
    ⟨.xposeR2C, 0x00000110#32, 0xFFFFFFFF#32⟩,
    ⟨.cmpr, 0x00000011#32, 0xFFFFFFFF#32⟩,
    ⟨.packA, 0x00000020#32, 0xFFFFFFFF#32⟩,
    ⟨.packAP, 0x00000120#32, 0xFFFFFFFF#32⟩,
    ⟨.packB, 0x00000021#32, 0xFFFFFFFF#32⟩,
    ⟨.packBP, 0x00000121#32, 0xFFFFFFFF#32⟩,
    ⟨.tclr, 0x00000030#32, 0xFFFFFFFF#32⟩,
    ⟨.tld, 0x00000031#32, 0xFFFFFFFF#32⟩,
    ⟨.tst, 0x00000032#32, 0xFFFFFFFF#32⟩,
    ⟨.mkr, 0x00000040#32, 0xFFFFFFFF#32⟩,
    ⟨.mkp, 0x00000041#32, 0xFFFFFFFF#32⟩,
    ⟨.dotrN, 0x00000050#32, 0xFFFFFEFF#32⟩,
    ⟨.dotrS, 0x00000250#32, 0xFFFFFEFF#32⟩,
    ⟨.dotrT, 0x00000450#32, 0xFFFFFEFF#32⟩ ]

/-- Word 0 lies in a row of the opcode map. -/
def OpcodeRow.matchesWord (r : OpcodeRow) (w : Word) : Bool := w &&& r.mask == r.pattern

/-- The defined opcodes; every other OPC is illegal (30_encoding R79). -/
def definedOpcodes : List Byte :=
  [0x00#8, 0x01#8, 0x02#8, 0x10#8, 0x11#8, 0x20#8, 0x21#8, 0x30#8, 0x31#8, 0x32#8, 0x40#8, 0x41#8,
    0x50#8]

/-- The FLAGS bits an opcode defines (30_encoding R72, R81). -/
def allowedFlags (opc : Byte) : Byte :=
  if opc == 0x10#8 || opc == 0x20#8 || opc == 0x21#8 then 0x01#8
  else if opc == 0x50#8 then 0x07#8
  else 0x00#8

/-- DOTR's V field, FLAGS[2:1] (30_encoding R72). -/
def dotrV (flags : Byte) : BitVec 2 := flags.extractLsb' 1 2

/-- The control word's mnemonic (30_encoding R81): ILLEGAL_OPCODE before RESERVED_ENC. The last
arm is never reached: a word that passes the checks lies in a row (DEDUCED, log 14). -/
def decodeControl (w : Word) : Except Cause Mnemonic :=
  if !definedOpcodes.contains (opcField w) then .error .illegalOpcode
  else if resField w != 0#16 then .error .reservedEnc
  else if flagsField w &&& ~~~(allowedFlags (opcField w)) != 0#8 then .error .reservedEnc
  else if opcField w == 0x50#8 && dotrV (flagsField w) == 3#2 then .error .reservedEnc
  else
    match opcodeMap.find? (fun r => r.matchesWord w) with
    | some r => .ok r.mnemonic
    | none => .error .reservedEnc

/-- The lane count of a DOTR command, from W16 = CMD[0][8] (30_encoding R78). -/
def lanesOf (w : Word) : Lanes := if w.getLsbD 8 then .w16 else .w8

/-- A DOTR mask: bits [W-1:0] of its operand word, the others ignored (30_encoding R85). -/
def maskOf : Lanes → Word → Half
  | .w8, m => (m.extractLsb' 0 8).setWidth 16
  | .w16, m => m.extractLsb' 0 16

/-- The command a mnemonic makes of a descriptor's operand words (30_encoding R85). -/
def operands (m : Mnemonic) (d : Descriptor) : Instr :=
  match m with
  | .nop => .nop
  | .cfg => .cfg d[1] d[2]
  | .zfill => .zfill d[1] d[2]
  | .xposeC2R => .xposeC2R d[1] d[2] d[3] d[4]
  | .xposeR2C => .xposeR2C d[1] d[2] d[3] d[4]
  | .cmpr => .cmpr d[1] d[2] d[3] d[4]
  | .packA => .packA d[1] d[3] (loHalf d[5]) (hiHalf d[5]) (loHalf d[6]) (hiHalf d[6])
  | .packAP =>
    .packAP d[1] d[2] d[3] d[4] (loHalf d[5]) (hiHalf d[5]) (loHalf d[6]) (hiHalf d[6])
  | .packB => .packB d[1] d[3] (loHalf d[5]) (hiHalf d[5]) (loHalf d[6]) (hiHalf d[6])
  | .packBP =>
    .packBP d[1] d[2] d[3] d[4] (loHalf d[5]) (hiHalf d[5]) (loHalf d[6]) (hiHalf d[6])
  | .tclr => .tclr
  | .tld => .tld d[1] (loHalf d[2]) (hiHalf d[2])
  | .tst => .tst d[1] (loHalf d[2]) (hiHalf d[2])
  | .mkr => .mkr d[1] d[2] d[3]
  | .mkp => .mkp d[1] d[2] d[3] d[4] d[5]
  | .dotrN => .dotrN (lanesOf d[0]) d[1] d[2] d[5]
  | .dotrS =>
    .dotrS (lanesOf d[0]) d[1] (maskOf (lanesOf d[0]) d[3]) (maskOf (lanesOf d[0]) d[4]) d[5]
  | .dotrT =>
    .dotrT (lanesOf d[0]) d[1] (maskOf (lanesOf d[0]) d[3]) (maskOf (lanesOf d[0]) d[4]) d[5]

/-- The decoder (30_encoding R81): always eight words, total, a cause where it rejects. -/
def decode (d : Descriptor) : Except Cause Instr :=
  match decodeControl d[0] with
  | .ok m => .ok (operands m d)
  | .error e => .error e

/-! ### The encoder (30_encoding R85, R86): ignored words are written 0 -/

/-- The row of the opcode map a command lies in. -/
def Instr.mnemonic : Instr → Mnemonic
  | .nop => .nop
  | .cfg _ _ => .cfg
  | .zfill _ _ => .zfill
  | .xposeC2R _ _ _ _ => .xposeC2R
  | .xposeR2C _ _ _ _ => .xposeR2C
  | .cmpr _ _ _ _ => .cmpr
  | .packA _ _ _ _ _ _ => .packA
  | .packAP _ _ _ _ _ _ _ _ => .packAP
  | .packB _ _ _ _ _ _ => .packB
  | .packBP _ _ _ _ _ _ _ _ => .packBP
  | .tclr => .tclr
  | .tld _ _ _ => .tld
  | .tst _ _ _ => .tst
  | .mkr _ _ _ => .mkr
  | .mkp _ _ _ _ _ => .mkp
  | .dotrN _ _ _ _ => .dotrN
  | .dotrS _ _ _ _ _ => .dotrS
  | .dotrT _ _ _ _ _ => .dotrT

/-- DOTR's control word: OPC 0x50, W16 in bit 8, V in bits 10..9 (30_encoding R72). -/
def dotrWord (w : Lanes) (v : BitVec 2) : Word :=
  (0#21 ++ v) ++ ((match w with | .w8 => 0#1 | .w16 => 1#1) ++ 0x50#8)

/-- The words of a command, W0 first (30_encoding R85, R86). -/
def encode : Instr → Descriptor
  | .nop => #v[0x00#32, 0, 0, 0, 0, 0, 0, 0]
  | .cfg idx val => #v[0x01#32, idx, val, 0, 0, 0, 0, 0]
  | .zfill dst len => #v[0x02#32, dst, len, 0, 0, 0, 0, 0]
  | .xposeC2R src dst rows cols => #v[0x010#32, src, dst, rows, cols, 0, 0, 0]
  | .xposeR2C src dst rows cols => #v[0x110#32, src, dst, rows, cols, 0, 0, 0]
  | .cmpr src dv ds len => #v[0x11#32, src, dv, ds, len, 0, 0, 0]
  | .packA src dst row0 k0 mc kc =>
    #v[0x020#32, src, 0, dst, 0, pairWord k0 row0, pairWord kc mc, 0]
  | .packAP sv ss dv ds row0 k0 mc kc =>
    #v[0x120#32, sv, ss, dv, ds, pairWord k0 row0, pairWord kc mc, 0]
  | .packB src dst col0 k0 nc kc =>
    #v[0x021#32, src, 0, dst, 0, pairWord k0 col0, pairWord kc nc, 0]
  | .packBP sv ss dv ds col0 k0 nc kc =>
    #v[0x121#32, sv, ss, dv, ds, pairWord k0 col0, pairWord kc nc, 0]
  | .tclr => #v[0x30#32, 0, 0, 0, 0, 0, 0, 0]
  | .tld cbase row0 col0 => #v[0x31#32, cbase, pairWord col0 row0, 0, 0, 0, 0, 0]
  | .tst cbase row0 col0 => #v[0x32#32, cbase, pairWord col0 row0, 0, 0, 0, 0, 0]
  | .mkr a b kc => #v[0x40#32, a, b, kc, 0, 0, 0, 0]
  | .mkp aVal aSgn bVal bSgn kc => #v[0x41#32, aVal, aSgn, bVal, bSgn, kc, 0, 0]
  | .dotrN w a b dst => #v[dotrWord w 0#2, a, b, 0, 0, dst, 0, 0]
  | .dotrS w a vmask smask dst =>
    #v[dotrWord w 1#2, a, 0, vmask.setWidth 32, smask.setWidth 32, dst, 0, 0]
  | .dotrT w a vmask smask dst =>
    #v[dotrWord w 2#2, a, 0, vmask.setWidth 32, smask.setWidth 32, dst, 0, 0]

/-! ### Pseudo-instructions (30_encoding R87) -/

/-- SETN n. -/
def pseudoSetN (n : Word) : Instr := .cfg 0#32 n

/-- SETMR m. -/
def pseudoSetMR (m : Word) : Instr := .cfg 1#32 m

/-- SETNR m. -/
def pseudoSetNR (m : Word) : Instr := .cfg 2#32 m

/-- CLRMAT base, with `n` the assembler's value of the last SETN. -/
def pseudoClrMat (base : Word) (n : Half) : Instr :=
  .zfill base (BitVec.ofNat 32 (n.toNat * n.toNat))

/-! ### The host's view of a table row -/

/-- The descriptor whose bits are `w` below bit `nbits` and 0 above, word 0 first. -/
def descriptorOfBits (nbits w : Nat) : Descriptor :=
  Vector.ofFn fun i : Fin 8 => BitVec.ofNat 32 ((w % 2 ^ nbits) >>> (32 * i.val))

/-- What the decoder reads from an instruction whose bits are `w`. -/
def decodeTableWord (nbits w : Nat) : Option Instr :=
  match decode (descriptorOfBits nbits w) with
  | .ok i => some i
  | .error _ => none

end Sys2Proof
end

