-- ==== Sys2Proof/Config.lean ====
section
/-! DEFINITION. What an implementation fixes (00_scope R6, 92_eei_decisions "Open parameters"),
and the free values of 93_implementation_defined. A constant without a body is a free value:
no proof can know what it is. -/

namespace Sys2Proof.Config

/-- The constant of the ID register (10_state R25). -/
def idWord : Word := 0x54425043#32

/-- DMEM_SIZE of `State.reset`. OPEN in the spec (20_memory R50); 4096 is the size
95_test_vectors uses. DESIGN CHOICE, unsafe (log 1). -/
def dmemSizeAtReset : Nat := 4096

/-- What a DMEM address that memory does not list reads as. The spec leaves power-on contents
unspecified (20_memory R67). DESIGN CHOICE, unsafe (log 2). -/
def unlistedByte : Byte := 0#8

/-- REG_BASE, the host-bus address of the register port: OPEN, platform (20_memory R60, log 13). -/
opaque regBase : Nat

/-- DMEM_BASE, the host-bus address of DMEM byte 0: OPEN, platform (20_memory R60, log 13). -/
opaque dmemBase : Nat

/-- The 'any value' a host read returns (20_memory R62, R63), a fresh one per tick (log 6). -/
opaque freeHostRead : Nat → Word

/-- Whether field `k` of a register read while BUSY = 1 already shows its value after the command
(20_memory R63 'field by field'), per tick (log 7). -/
opaque freeSeenAfter : Nat → Nat → Bool

/-- Whether the byte at an address of a command's written regions was already written when rst_n
fell during the command (70_reset_and_hazards R263), per tick (log 8). -/
opaque freeLanded : Nat → Nat → Bool

end Sys2Proof.Config
end

