-- ==== Sys2Proof/Machine/State.lean ====
section
/-! DEFINITION. The state of the block (10_state R20, R36), what the HOST agent still has to do
(00_scope R9), the reasons a step could stop, and the state after reset (10_state R35). -/

namespace Sys2Proof.Machine

/-- DMEM as a list of (address, byte) pairs: addresses strictly rising, no entry equal to
`Config.unlistedByte`, which is what an unlisted address reads as (20_memory R50, log 2). -/
abbrev Memory := List Host.Cell

/-- The accumulator tile: 16 rows of 16 signed 8-bit cells, ACC[l][j] (10_state R27). -/
abbrev AccTile := Vector (Vector Byte 16) 16

/-- The widths of a host access (20_memory R61). -/
inductive AccessWidth where
  | byte
  | half
  | word
  deriving DecidableEq, Repr

/-- One access the host makes. Register accesses are at a byte offset from REG_BASE, DMEM
accesses at a DMEM byte address, that is an offset from DMEM_BASE (20_memory R60, log 13). -/
inductive HostAccess where
  /-- A read of the register port (10_state R23). -/
  | regRead (width : AccessWidth) (off : Nat)
  /-- A write of the register port (10_state R23). -/
  | regWrite (width : AccessWidth) (off : Nat) (v : Word)
  /-- A read of the DMEM port (20_memory R61). -/
  | dmemRead (width : AccessWidth) (addr : Nat)
  /-- A write of the DMEM port; only the low bits of `v` that fit the width are stored. -/
  | dmemWrite (width : AccessWidth) (addr : Nat) (v : Word)
  /-- rst_n is pulled low and released (70_reset_and_hazards R260, log 15). -/
  | hardReset
  deriving DecidableEq, Repr

/-- One turn of the HOST: an access, or letting the block take its turn (log 3). -/
inductive HostEvent where
  | access (a : HostAccess)
  | yield
  deriving DecidableEq, Repr

/-- The state of the machine (10_state R36), with the fields the model adds named as such. -/
structure State where
  /-- CSR.N, 0 = unset (10_state R24). -/
  csrN : Half
  /-- CSR.MR, 0 = unset (10_state R24). -/
  csrMR : BitVec 5
  /-- CSR.NR, 0 = unset (10_state R24). -/
  csrNR : BitVec 5
  /-- STATUS.BUSY (10_state R26). -/
  busy : Bool
  /-- STATUS.FAULT, sticky until reset (10_state R26). -/
  fault : Bool
  /-- STATUS.HERR, sticky until reset (10_state R26, 60_exceptions R241). -/
  herr : Bool
  /-- STATUS.CAUSE, 0x00 = none (10_state R26, 60_exceptions R231). -/
  cause : Byte
  /-- STATUS.FOPC, the opcode byte of the faulting command (10_state R26). -/
  fopc : Byte
  /-- RETIRED, modulo 2^32 (10_state R30). -/
  retired : Word
  /-- DOTRES[7:0] (10_state R31). -/
  dotres : Byte
  /-- CMD[0..7] (10_state R28). -/
  cmd : Descriptor
  /-- ACC, the output-tile accumulator (10_state R27). -/
  acc : AccTile
  /-- DMEM (20_memory R50). -/
  dmem : Memory
  /-- DMEM_SIZE, the spec's OPEN parameter; no step changes it (20_memory R50, log 1). -/
  dmemSize : Nat
  /-- A soft reset was written while BUSY = 1 and awaits the end of the command
  (70_reset_and_hazards R262, log 9). -/
  srstPending : Bool
  /-- MODEL's own: what the HOST agent still has to do, first event first (log 3). -/
  host : List HostEvent
  /-- MODEL's own: the datum of the host's last read (log 5). -/
  hostData : Word
  /-- MODEL's own: how many times a free value was taken (log 6). -/
  freeTick : Nat
  deriving DecidableEq, Repr

/-- The block after power-on: the reset values of 10_state R35, DMEM of any size and with any
contents (20_memory R67, 70_reset_and_hazards R263), and a HOST with these turns to take. -/
def State.powerOn (size : Nat) (contents : Memory) (turns : List HostEvent) : State where
  csrN := 0
  csrMR := 0
  csrNR := 0
  busy := false
  fault := false
  herr := false
  cause := 0
  fopc := 0
  retired := 0
  dotres := 0
  cmd := Vector.replicate 8 0
  acc := Vector.replicate 16 (Vector.replicate 16 0)
  dmem := contents
  dmemSize := size
  srstPending := false
  host := turns
  hostData := 0
  freeTick := 0

/-- The machine right after reset (10_state R35, 70_reset_and_hazards R261): every register 0,
the block idle, DMEM with nothing listed (log 2), no turn of the host pending (log 4). -/
def State.reset : State := State.powerOn Config.dmemSizeAtReset [] []

/-- Reasons for which the machine stops. There is none: the spec gives every command and every
host access an effect on every operand; the block's own faults (60_exceptions R230) are next
states (log 16). Safe: no run ends here. -/
inductive Fault : Type
  deriving DecidableEq, Repr

/-- Reasons for which the model gives an instruction no meaning. -/
inductive Refusal where
  /-- Raised by an arm of `exec` for an instruction not modelled yet, and by nothing else; no arm
  raises it in this model. Safe: nothing is claimed of the instruction. -/
  | notModelled (mnemonic : String)
  deriving DecidableEq, Repr

end Sys2Proof.Machine
end

