-- ==== Sys2Proof/Machine/Flags.lean ====
section
/-! DEFINITION. The status bits: the cause codes (60_exceptions R231) and the STATUS word
(10_state R26, R36). The block has no condition flags (10_state R22). -/

namespace Sys2Proof

/-- The cause codes (60_exceptions R231). -/
def Cause.code : Cause → Byte
  | .illegalOpcode => 0x01#8
  | .reservedEnc => 0x02#8
  | .cfgUnset => 0x03#8
  | .badCfg => 0x04#8
  | .notDivisible => 0x05#8
  | .dimBounds => 0x06#8
  | .addrRange => 0x07#8
  | .overlap => 0x08#8
  | .notTernary => 0x09#8

end Sys2Proof

namespace Sys2Proof.Machine

/-- STATUS from its fields: `{0x00, fopc, cause, 0b00000, herr, fault, busy}` (10_state R36). -/
def packStatus (fopc cause : Byte) (herr fault busy : Bool) : Word :=
  ((0#8 ++ fopc) ++ cause) ++
    (((0#5 ++ BitVec.ofBool herr) ++ BitVec.ofBool fault) ++ BitVec.ofBool busy)

/-- STATUS as the host reads it while the block is idle (10_state R26). -/
def State.status (s : State) : Word := packStatus s.fopc s.cause s.herr s.fault s.busy

/-- A host-protocol error: HERR set, nothing else (60_exceptions R241, R242). -/
def State.setHerr (s : State) : State := { s with herr := true }

end Sys2Proof.Machine
end

