-- ==== Sys2Proof/Machine/Operands.lean ====
section
/-! DEFINITION. The arithmetic of the rules: signed bytes and wrapping (00_scope R11), counts of
set bits (00_scope R12), regions (00_scope R14), ternary pairs (00_scope R16), the layout
functions (42_packer §1), the micro-kernel's step (44_microkernel) and the lanes of the
single-row dot (45_rowdot). -/

namespace Sys2Proof.Machine

/-! ### Bytes as integers (00_scope R11, R12) -/

/-- `sext_8`: the signed value of a byte. -/
def sext8 (b : Byte) : Int := b.toInt

/-- The byte pattern of `wrap8 x`, which is also `u8 x`: x modulo 256. -/
def wrap8 (x : Int) : Byte := BitVec.ofInt 8 x

/-- `popcnt8`: the number of set bits of a byte. -/
def popcnt8 (b : Byte) : Nat := (List.range 8).countP fun i => b.getLsbD i

/-- `wrap8 (a * b)`: the 8-bit product of two signed bytes (44_microkernel R191). -/
def mulWrap (a b : Byte) : Byte := wrap8 (sext8 a * sext8 b)

/-! ### Regions (00_scope R14) -/

/-- `inDMEM(base, len)` for a memory of `size` bytes, on unbounded integers. -/
def inDmem (size base len : Nat) : Bool := len == 0 || decide (base + len ≤ size)

/-- `overlap(a, la, b, lb)`. -/
def overlaps (a la b lb : Nat) : Bool :=
  decide (0 < la) && decide (0 < lb) && decide (a < b + lb) && decide (b < a + la)

/-! ### Ternary pairs (00_scope R16) -/

/-- `tdec(v, s)`; a sign bit under a zero value bit decodes as 0 (60_exceptions R240). -/
def tdec (v s : Bool) : Int := if v then (if s then -1 else 1) else 0

/-- A byte the codec accepts: -1, 0 or +1 (41_codec R122). -/
def isTernary (b : Byte) : Bool := b == 0x00#8 || b == 0x01#8 || b == 0xFF#8

/-- The mask byte with bit `b` set where `f b` holds, bit j of weight 2^j (41_codec R122). -/
def maskByte (f : Nat → Bool) : Byte :=
  (List.range 8).foldl (fun m b => if f b then m ||| (1#8 <<< b) else m) 0#8

/-! ### Layout functions (42_packer R140, R141, R144, R145) -/

/-- Column-major offset (42_packer R140). -/
def cm (row col stride : Nat) : Nat := row + stride * col

/-- Row-major offset (42_packer R141). -/
def rm (row col stride : Nat) : Nat := col + stride * row

/-- The offset of lane `l` of step `kk` of panel `p`, for panels of `width` lanes and `steps`
steps: `offA` and `offB` (42_packer R144, R145). -/
def panelOffset (width steps p kk l : Nat) : Nat := p * width * steps + kk * width + l

/-! ### Loops (00_scope R15) -/

/-- `for x in 0..m-1: for y in 0..n-1`, collecting what the body gives. -/
def forLoop2 {α : Type} (m n : Nat) (body : Nat → Nat → α) : List α :=
  (List.range m).flatMap fun x => (List.range n).map fun y => body x y

/-- `for x in 0..m-1: for y in 0..n-1: for z in 0..k-1`, collecting what the body gives. -/
def forLoop3 {α : Type} (m n k : Nat) (body : Nat → Nat → Nat → α) : List α :=
  (List.range m).flatMap fun x => forLoop2 n k (body x)

/-! ### Configuration (40_control R102) -/

/-- `legal(idx, val)` of CFG. -/
def legalCfg (idx val : Word) : Bool :=
  if idx == 0#32 then decide (1 ≤ val.toNat ∧ val.toNat ≤ 65535)
  else if idx == 1#32 || idx == 2#32 then val == 8#32 || val == 16#32
  else false

/-! ### Micro-kernel steps (44_microkernel R191, R193 to R196) -/

/-- One raw step on one cell: `wrap8(ACC + wrap8(al * bj))` (44_microkernel R191). -/
def macStep (acc al bj : Byte) : Byte := wrap8 (sext8 acc + sext8 (mulWrap al bj))

/-- `common` of a packed step: both elements nonzero (44_microkernel R196). -/
def commonMask (av bv : Byte) : Byte := av &&& bv

/-- `sign_diff` of a packed step: the signs differ (44_microkernel R196). -/
def signDiffMask (aSgn bSgn : Byte) : Byte := aSgn ^^^ bSgn

/-- `p1 - p2` of a packed step: the popcount identity, with the doubling as a left shift by 1
(44_microkernel R194, R196). -/
def popcountPartial (av aSgn bv bSgn : Byte) : Int :=
  (popcnt8 (commonMask av bv) : Int)
    - ((popcnt8 (commonMask av bv &&& signDiffMask aSgn bSgn) <<< 1 : Nat) : Int)

/-- One packed step on one cell: `wrap8(ACC + p1 - p2)` (44_microkernel R196). -/
def popcountStep (acc av aSgn bv bSgn : Byte) : Byte :=
  wrap8 (sext8 acc + popcountPartial av aSgn bv bSgn)

/-! ### Lanes of the single-row dot (45_rowdot) -/

/-- W (30_encoding R78). -/
def laneCount : Lanes → Nat
  | .w8 => 8
  | .w16 => 16

/-- Lane `i` of a mask is bit W-1-i: most significant bit first (45_rowdot R210). -/
def laneBit (w : Lanes) (mask : Half) (i : Nat) : Bool := mask.getLsbD (laneCount w - 1 - i)

/-- A lane of DOTR.N: the raw product (45_rowdot R211). -/
def naiveLane (a b : Byte) : Byte := mulWrap a b

/-- A lane of DOTR.S: `(x ^ -s) + s`, then the zero/one mask multiply (45_rowdot R212). -/
def shiftedLane (x : Byte) (v s : Bool) : Byte :=
  let t := wrap8 (sext8 (x ^^^ (if s then 0xFF#8 else 0x00#8)) + (if s then 1 else 0))
  wrap8 (sext8 t * (if v then 1 else 0))

/-- A lane of DOTR.T: select masks and bitwise AND and OR (45_rowdot R213, log 19). -/
def bitTestLane (x : Byte) (v s : Bool) : Byte :=
  let vsel : Byte := if v then 0xFF#8 else 0x00#8
  let ssel : Byte := if s then 0xFF#8 else 0x00#8
  ((x &&& ~~~ssel) ||| (wrap8 (-(sext8 x)) &&& ssel)) &&& vsel

/-- `u8(Σ P_i)`: the wraparound scalar of the lane products (45_rowdot R215). -/
def laneSum (products : List Byte) : Byte := wrap8 (products.map sext8).sum

end Sys2Proof.Machine
end

