-- ==== Sys2Proof/Machine/Ops.lean ====
section
/-! DEFINITION. The named operations over DMEM, ACC and the registers: reading and writing bytes
(20_memory R56), the tile's cells (10_state R27), retiring a command (20_memory R55), raising a
fault (60_exceptions R236) and the reset that is its only return (60_exceptions R238,
70_reset_and_hazards R261). -/

namespace Sys2Proof.Machine

/-! ### DMEM (20_memory R50, R56) -/

/-- The byte at an address: the listed one, else `Config.unlistedByte` (log 2). -/
def Memory.read : Memory → Nat → Byte
  | [], _ => Config.unlistedByte
  | (b, v) :: rest, a => if a = b then v else Memory.read rest a

/-- The memory with `v` at address `a`, in the canonical form: an entry that reads as an unlisted
address is left out. -/
def Memory.write : Memory → Nat → Byte → Memory
  | [], a, v => if v = Config.unlistedByte then [] else [(a, v)]
  | (b, w) :: rest, a, v =>
    if a < b then (if v = Config.unlistedByte then (b, w) :: rest else (a, v) :: (b, w) :: rest)
    else if a = b then (if v = Config.unlistedByte then rest else (a, v) :: rest)
    else (b, w) :: Memory.write rest a v

/-- Several writes, in order. -/
def Memory.writeAll (m : Memory) (ws : List Host.Cell) : Memory :=
  ws.foldl (fun m c => Memory.write m c.1 c.2) m

/-- The canonical form: addresses strictly rising from `lo`, no entry reads as an unlisted one. -/
def Memory.wfFrom : Nat → Memory → Bool
  | _, [] => true
  | lo, (b, v) :: rest => decide (lo ≤ b) && v != Config.unlistedByte && Memory.wfFrom (b + 1) rest

/-- The canonical form of memory. -/
def Memory.wf (m : Memory) : Bool := Memory.wfFrom 0 m

/-- Every listed address lies in a DMEM of `size` bytes (20_memory R50). -/
def Memory.within (size : Nat) (m : Memory) : Bool := m.all fun c => decide (c.1 < size)

/-- `old` with the bytes that `landed` selects taken from `new` (70_reset_and_hazards R263). -/
def Memory.mix (landed : Nat → Bool) (old new : Memory) : Memory :=
  Memory.writeAll old <|
    (old ++ new).map fun c =>
      (c.1, if landed c.1 then Memory.read new c.1 else Memory.read old c.1)

/-- MemRead(a, 1) (00_scope R13). -/
def State.read (s : State) (a : Nat) : Byte := Memory.read s.dmem a

/-- MemWrite of each pair, in order (00_scope R13). -/
def State.store (s : State) (ws : List Host.Cell) : State :=
  { s with dmem := Memory.writeAll s.dmem ws }

/-! ### ACC (10_state R27) -/

/-- ACC[l][j]; there is no cell outside 16 × 16 (log 12). -/
def State.accCell (s : State) (l j : Nat) : Byte :=
  if h : l < 16 ∧ j < 16 then (s.acc[l]'h.1)[j]'h.2 else 0

/-- The active tile: rows below CSR.MR, columns below CSR.NR (10_state R27). -/
def State.isActive (s : State) (l j : Nat) : Bool :=
  decide (l < s.csrMR.toNat) && decide (j < s.csrNR.toNat)

/-- Every active cell replaced by `f l j`, every other cell as it was. -/
def State.setActive (s : State) (f : Nat → Nat → Byte) : State :=
  { s with acc := Vector.ofFn fun l => Vector.ofFn fun j =>
      if s.isActive l.val j.val then f l.val j.val else (s.acc[l])[j] }

/-- All 256 cells 0 (43_accumulator R171). -/
def State.clearAcc (s : State) : State :=
  { s with acc := Vector.replicate 16 (Vector.replicate 16 0#8) }

/-! ### Configuration registers (40_control R101) -/

/-- The write of CFG, once `legalCfg` holds; any other index writes nothing. -/
def State.writeCsr (s : State) (idx val : Word) : State :=
  if idx == 0#32 then { s with csrN := val.extractLsb' 0 16 }
  else if idx == 1#32 then { s with csrMR := val.extractLsb' 0 5 }
  else if idx == 2#32 then { s with csrNR := val.extractLsb' 0 5 }
  else s

/-! ### The end of a command (20_memory R55) -/

/-- A command retires: RETIRED + 1 modulo 2^32, BUSY 0 (20_memory R55). -/
def State.retire (s : State) : State :=
  { s with retired := s.retired + 1, busy := false }

/-- Fault entry (60_exceptions R236): STATUS alone is written, FOPC from the command words. -/
def State.raise (s : State) (c : Cause) : State :=
  { s with cause := c.code, fopc := opcField s.cmd[0], fault := true, busy := false }

/-- One check of a command: fault with `c` unless `ok` (60_exceptions R233). -/
def require (ok : Bool) (c : Cause) : Except Cause Unit := if ok then .ok () else .error c

/-- The step of a command (20_memory R55): every check first, then either the fault alone or every
write and the retirement. -/
def State.endCommand (s : State) (check : Except Cause Unit) (perform : State → State) :
    Host.Outcome State Fault Refusal :=
  .next (match check with
    | .ok _ => (perform s).retire
    | .error c => s.raise c)

/-! ### Reset, the only return from a fault (60_exceptions R238, 70_reset_and_hazards R261) -/

/-- The effect of a reset: every register and ACC cell at its reset value, DMEM as it was. -/
def State.resetRegisters (s : State) : State :=
  { s with
    csrN := 0, csrMR := 0, csrNR := 0
    busy := false, fault := false, herr := false, cause := 0, fopc := 0
    retired := 0, dotres := 0
    cmd := Vector.replicate 8 0
    acc := Vector.replicate 16 (Vector.replicate 16 0)
    srstPending := false }

/-- A soft reset written during the command takes effect when it ends
(70_reset_and_hazards R262). -/
def State.applyPendingReset (s : State) : State :=
  if s.srstPending then s.resetRegisters else s

end Sys2Proof.Machine
end

