-- ==== Sys2Proof/Machine/Packer.lean ====
section
/-! DEFINITION. The panel packer: PACKA, PACKA.P, PACKB and PACKB.P (42_packer). -/

namespace Sys2Proof.Machine

/-- CSR.N, CSR.MR and CSR.NR are all set: what every geometry command needs (60_exceptions
R235). -/
def State.geometrySet (s : State) : Bool := s.csrN != 0 && s.csrMR != 0 && s.csrNR != 0

/-- N is a multiple of MR and of NR (42_packer R153). -/
def State.tilesDivide (s : State) : Bool :=
  s.csrN.toNat % s.csrMR.toNat == 0 && s.csrN.toNat % s.csrNR.toNat == 0

/-- The size and bounds checks of a pack command: panels of `width` lanes from row or column
`p0`, `ext` lanes in all, `kc` reduction steps from `k0`, both multiples of `kUnit` (1 raw,
8 packed) (42_packer R146 to R149). -/
def packGeometry (s : State) (width kUnit p0 ext k0 kc : Nat) : Except Cause Unit := do
  require s.geometrySet .cfgUnset
  require (s.tilesDivide && ext % width == 0 && k0 % kUnit == 0 && kc % kUnit == 0) .notDivisible
  require (decide (p0 + ext ≤ s.csrN.toNat) && decide (k0 + kc ≤ s.csrN.toNat)) .dimBounds

/-- The checks of PACKA and PACKB: the whole N × N source, `ext` · `kc` destination bytes
(42_packer R146, R148). -/
def packRawCheck (s : State) (width src dst p0 ext k0 kc : Nat) : Except Cause Unit := do
  packGeometry s width 1 p0 ext k0 kc
  require (inDmem s.dmemSize src (s.csrN.toNat * s.csrN.toNat)
    && inDmem s.dmemSize dst (ext * kc)) .addrRange
  require (!overlaps dst (ext * kc) src (s.csrN.toNat * s.csrN.toNat)) .overlap

/-- The checks of PACKA.P and PACKB.P: two whole sources of N · N / 8 bytes, two destinations of
`ext` · (kc / 8) bytes (42_packer R147, R149). -/
def packPackedCheck (s : State) (width sv ss dv ds p0 ext k0 kc : Nat) : Except Cause Unit := do
  packGeometry s width 8 p0 ext k0 kc
  let size := s.csrN.toNat * s.csrN.toNat / 8
  let dlen := ext * (kc / 8)
  require (inDmem s.dmemSize sv size && inDmem s.dmemSize ss size
    && inDmem s.dmemSize dv dlen && inDmem s.dmemSize ds dlen) .addrRange
  require (!overlaps dv dlen ds dlen && !overlaps dv dlen sv size && !overlaps dv dlen ss size
    && !overlaps ds dlen sv size && !overlaps ds dlen ss size) .overlap

/-- The writes of PACKA (42_packer R146). -/
def packAWrites (s : State) (src dst row0 k0 mc kc : Nat) : List Host.Cell :=
  let mr := s.csrMR.toNat
  forLoop3 (mc / mr) kc mr fun p kk l =>
    (dst + panelOffset mr kc p kk l,
      s.read (src + cm (row0 + p * mr + l) (k0 + kk) s.csrN.toNat))

/-- The writes of PACKB (42_packer R148). -/
def packBWrites (s : State) (src dst col0 k0 nc kc : Nat) : List Host.Cell :=
  let nr := s.csrNR.toNat
  forLoop3 (nc / nr) kc nr fun q kk l =>
    (dst + panelOffset nr kc q kk l,
      s.read (src + cm (k0 + kk) (col0 + q * nr + l) s.csrN.toNat))

/-- The writes of one of the two masks of PACKA.P, from `src` to `dst` (42_packer R147). -/
def packAPMaskWrites (s : State) (src dst row0 k0 mc kc : Nat) : List Host.Cell :=
  let mr := s.csrMR.toNat
  forLoop3 (mc / mr) (kc / 8) mr fun p kk l =>
    (dst + panelOffset mr (kc / 8) p kk l,
      s.read (src + cm (row0 + p * mr + l) (k0 / 8 + kk) s.csrN.toNat))

/-- The writes of one of the two masks of PACKB.P, from `src` to `dst` (42_packer R149). -/
def packBPMaskWrites (s : State) (src dst col0 k0 nc kc : Nat) : List Host.Cell :=
  let nr := s.csrNR.toNat
  forLoop3 (nc / nr) (kc / 8) nr fun q kk l =>
    (dst + panelOffset nr (kc / 8) q kk l,
      s.read (src + cm (k0 / 8 + kk) (col0 + q * nr + l) (s.csrN.toNat / 8)))

/-- PACKA src, dst, row0, k0, mc, kc (42_packer R146). -/
def execPackA (src dst : Word) (row0 k0 mc kc : Half) (s : State) :
    Host.Outcome State Fault Refusal :=
  s.endCommand
    (packRawCheck s s.csrMR.toNat src.toNat dst.toNat row0.toNat mc.toNat k0.toNat kc.toNat)
    fun t => t.store (packAWrites t src.toNat dst.toNat row0.toNat k0.toNat mc.toNat kc.toNat)

/-- PACKA.P sv, ss, dv, ds, row0, k0, mc, kc (42_packer R147). -/
def execPackAP (sv ss dv ds : Word) (row0 k0 mc kc : Half) (s : State) :
    Host.Outcome State Fault Refusal :=
  s.endCommand
    (packPackedCheck s s.csrMR.toNat sv.toNat ss.toNat dv.toNat ds.toNat row0.toNat mc.toNat
      k0.toNat kc.toNat)
    fun t => t.store
      (packAPMaskWrites t sv.toNat dv.toNat row0.toNat k0.toNat mc.toNat kc.toNat
        ++ packAPMaskWrites t ss.toNat ds.toNat row0.toNat k0.toNat mc.toNat kc.toNat)

/-- PACKB src, dst, col0, k0, nc, kc (42_packer R148). -/
def execPackB (src dst : Word) (col0 k0 nc kc : Half) (s : State) :
    Host.Outcome State Fault Refusal :=
  s.endCommand
    (packRawCheck s s.csrNR.toNat src.toNat dst.toNat col0.toNat nc.toNat k0.toNat kc.toNat)
    fun t => t.store (packBWrites t src.toNat dst.toNat col0.toNat k0.toNat nc.toNat kc.toNat)

/-- PACKB.P sv, ss, dv, ds, col0, k0, nc, kc (42_packer R149). -/
def execPackBP (sv ss dv ds : Word) (col0 k0 nc kc : Half) (s : State) :
    Host.Outcome State Fault Refusal :=
  s.endCommand
    (packPackedCheck s s.csrNR.toNat sv.toNat ss.toNat dv.toNat ds.toNat col0.toNat nc.toNat
      k0.toNat kc.toNat)
    fun t => t.store
      (packBPMaskWrites t sv.toNat dv.toNat col0.toNat k0.toNat nc.toNat kc.toNat
        ++ packBPMaskWrites t ss.toNat ds.toNat col0.toNat k0.toNat nc.toNat kc.toNat)

end Sys2Proof.Machine
end

