-- ==== Sys2Proof/Machine/Accumulator.lean ====
section
/-! DEFINITION. The output-tile accumulator: TCLR, TLD and TST (43_accumulator). -/

namespace Sys2Proof.Machine

/-- TCLR: every cell 0, active or not (43_accumulator R171). -/
def execTclr (s : State) : Host.Outcome State Fault Refusal :=
  s.endCommand (.ok ()) fun t => t.clearAcc

/-- The checks of TLD and TST (43_accumulator R172, R173). -/
def tileCheck (s : State) (cbase row0 col0 : Nat) : Except Cause Unit := do
  require s.geometrySet .cfgUnset
  require s.tilesDivide .notDivisible
  require (decide (row0 + s.csrMR.toNat ≤ s.csrN.toNat)
    && decide (col0 + s.csrNR.toNat ≤ s.csrN.toNat)) .dimBounds
  require (inDmem s.dmemSize cbase (s.csrN.toNat * s.csrN.toNat)) .addrRange

/-- The address of C[row0 + l, col0 + j] (43_accumulator R172, 42_packer R140). -/
def tileAddr (s : State) (cbase row0 col0 l j : Nat) : Nat :=
  cbase + cm (row0 + l) (col0 + j) s.csrN.toNat

/-- TLD cbase, row0, col0: the active cells from C (43_accumulator R172). -/
def execTld (cbase : Word) (row0 col0 : Half) (s : State) : Host.Outcome State Fault Refusal :=
  s.endCommand (tileCheck s cbase.toNat row0.toNat col0.toNat) fun t =>
    t.setActive fun l j => t.read (tileAddr t cbase.toNat row0.toNat col0.toNat l j)

/-- The writes of TST: the active cells into C (43_accumulator R173). -/
def tstWrites (s : State) (cbase row0 col0 : Nat) : List Host.Cell :=
  forLoop2 s.csrMR.toNat s.csrNR.toNat fun l j =>
    (tileAddr s cbase row0 col0 l j, s.accCell l j)

/-- TST cbase, row0, col0: the active cells into C, ACC unchanged (43_accumulator R173). -/
def execTst (cbase : Word) (row0 col0 : Half) (s : State) : Host.Outcome State Fault Refusal :=
  s.endCommand (tileCheck s cbase.toNat row0.toNat col0.toNat) fun t =>
    t.store (tstWrites t cbase.toNat row0.toNat col0.toNat)

end Sys2Proof.Machine
end

