-- ==== Sys2Proof/Machine/Codec.lean ====
section
/-! DEFINITION. The ternary codec: XPOSE.C2R, XPOSE.R2C and CMPR (41_codec). -/

namespace Sys2Proof.Machine

/-- The checks of both XPOSE commands, `size` = rows · cols unbounded (41_codec R120, R121,
60_exceptions R235). -/
def xposeCheck (s : State) (src dst size : Nat) : Except Cause Unit := do
  require (inDmem s.dmemSize src size && inDmem s.dmemSize dst size) .addrRange
  require (!overlaps src size dst size) .overlap

/-- The writes of XPOSE.C2R (41_codec R120). -/
def xposeC2RWrites (s : State) (src dst rows cols : Nat) : List Host.Cell :=
  forLoop2 rows cols fun r c => (dst + rm r c cols, s.read (src + cm r c rows))

/-- The writes of XPOSE.R2C (41_codec R121). -/
def xposeR2CWrites (s : State) (src dst rows cols : Nat) : List Host.Cell :=
  forLoop2 rows cols fun r c => (dst + cm r c rows, s.read (src + rm r c cols))

/-- XPOSE.C2R src, dst, rows, cols: column-major to row-major (41_codec R120). -/
def execXposeC2R (src dst rows cols : Word) (s : State) : Host.Outcome State Fault Refusal :=
  s.endCommand (xposeCheck s src.toNat dst.toNat (rows.toNat * cols.toNat)) fun t =>
    t.store (xposeC2RWrites t src.toNat dst.toNat rows.toNat cols.toNat)

/-- XPOSE.R2C src, dst, rows, cols: row-major to column-major (41_codec R121). -/
def execXposeR2C (src dst rows cols : Word) (s : State) : Host.Outcome State Fault Refusal :=
  s.endCommand (xposeCheck s src.toNat dst.toNat (rows.toNat * cols.toNat)) fun t =>
    t.store (xposeR2CWrites t src.toNat dst.toNat rows.toNat cols.toNat)

/-- The checks of CMPR, the scan of the whole source last (41_codec R122). -/
def cmprCheck (s : State) (src dv ds len : Nat) : Except Cause Unit := do
  require (len % 8 == 0) .notDivisible
  require (inDmem s.dmemSize src len && inDmem s.dmemSize dv (len / 8)
    && inDmem s.dmemSize ds (len / 8)) .addrRange
  require (!overlaps src len dv (len / 8) && !overlaps src len ds (len / 8)
    && !overlaps dv (len / 8) ds (len / 8)) .overlap
  require ((List.range len).all fun t => isTernary (s.read (src + t))) .notTernary

/-- The value mask of group `g` of the source at `src` (41_codec R122). -/
def valueMask (s : State) (src g : Nat) : Byte :=
  maskByte fun b => sext8 (s.read (src + 8 * g + b)) != 0

/-- The sign mask of group `g` of the source at `src` (41_codec R122). -/
def signMask (s : State) (src g : Nat) : Byte :=
  maskByte fun b => decide (sext8 (s.read (src + 8 * g + b)) < 0)

/-- The writes of CMPR (41_codec R122). -/
def cmprWrites (s : State) (src dv ds len : Nat) : List Host.Cell :=
  (List.range (len / 8)).flatMap fun g =>
    [(dv + g, valueMask s src g), (ds + g, signMask s src g)]

/-- CMPR src, dv, ds, len: ternary elements to value and sign masks (41_codec R122). -/
def execCmpr (src dv ds len : Word) (s : State) : Host.Outcome State Fault Refusal :=
  s.endCommand (cmprCheck s src.toNat dv.toNat ds.toNat len.toNat) fun t =>
    t.store (cmprWrites t src.toNat dv.toNat ds.toNat len.toNat)

end Sys2Proof.Machine
end

