-- ==== Sys2Proof/Machine/Control.lean ====
section
/-! DEFINITION. The control commands NOP, CFG and ZFILL (40_control). -/

namespace Sys2Proof.Machine

/-- NOP: retires, nothing else (40_control R100). -/
def execNop (s : State) : Host.Outcome State Fault Refusal :=
  s.endCommand (.ok ()) fun t => t

/-- CFG idx, val: a configuration register, or BAD_CFG (40_control R101, R102). -/
def execCfg (idx val : Word) (s : State) : Host.Outcome State Fault Refusal :=
  s.endCommand (require (legalCfg idx val) .badCfg) fun t => t.writeCsr idx val

/-- The writes of ZFILL: zero at dst .. dst+len-1 (40_control R103). -/
def zfillWrites (dst len : Nat) : List Host.Cell :=
  (List.range len).map fun t => (dst + t, 0#8)

/-- ZFILL dst, len: zero a byte region (40_control R103). -/
def execZfill (dst len : Word) (s : State) : Host.Outcome State Fault Refusal :=
  s.endCommand (require (inDmem s.dmemSize dst.toNat len.toNat) .addrRange) fun t =>
    t.store (zfillWrites dst.toNat len.toNat)

end Sys2Proof.Machine
end

