-- ==== Sys2Proof/Machine/Microkernel.lean ====
section
/-! DEFINITION. The micro-kernel: MKR and MKP (44_microkernel). -/

namespace Sys2Proof.Machine

/-- CSR.MR and CSR.NR are set: what the micro-kernel needs (44_microkernel R191, R196). -/
def State.tileSet (s : State) : Bool := s.csrMR != 0 && s.csrNR != 0

/-- The checks of MKR (44_microkernel R191). -/
def mkrCheck (s : State) (a b kc : Nat) : Except Cause Unit := do
  require s.tileSet .cfgUnset
  require (inDmem s.dmemSize a (kc * s.csrMR.toNat)
    && inDmem s.dmemSize b (kc * s.csrNR.toNat)) .addrRange

/-- The new value of ACC[l][j] under MKR: kc raw steps (44_microkernel R191). -/
def mkrCell (s : State) (a b kc l j : Nat) : Byte :=
  (List.range kc).foldl
    (fun acc kk =>
      macStep acc (s.read (a + kk * s.csrMR.toNat + l)) (s.read (b + kk * s.csrNR.toNat + j)))
    (s.accCell l j)

/-- MKR a, b, kc: raw multiply-accumulate into the active cells (44_microkernel R191). -/
def execMkr (a b kc : Word) (s : State) : Host.Outcome State Fault Refusal :=
  s.endCommand (mkrCheck s a.toNat b.toNat kc.toNat) fun t =>
    t.setActive fun l j => mkrCell t a.toNat b.toNat kc.toNat l j

/-- The checks of MKP (44_microkernel R196). -/
def mkpCheck (s : State) (aVal aSgn bVal bSgn kc : Nat) : Except Cause Unit := do
  require s.tileSet .cfgUnset
  require (kc % 8 == 0) .notDivisible
  require (inDmem s.dmemSize aVal (kc / 8 * s.csrMR.toNat)
    && inDmem s.dmemSize aSgn (kc / 8 * s.csrMR.toNat)
    && inDmem s.dmemSize bVal (kc / 8 * s.csrNR.toNat)
    && inDmem s.dmemSize bSgn (kc / 8 * s.csrNR.toNat)) .addrRange

/-- The new value of ACC[l][j] under MKP: kc / 8 packed steps (44_microkernel R196). -/
def mkpCell (s : State) (aVal aSgn bVal bSgn kc l j : Nat) : Byte :=
  (List.range (kc / 8)).foldl
    (fun acc kk =>
      popcountStep acc
        (s.read (aVal + kk * s.csrMR.toNat + l)) (s.read (aSgn + kk * s.csrMR.toNat + l))
        (s.read (bVal + kk * s.csrNR.toNat + j)) (s.read (bSgn + kk * s.csrNR.toNat + j)))
    (s.accCell l j)

/-- MKP av, as, bv, bs, kc: popcount ternary dot product into the active cells
(44_microkernel R196). -/
def execMkp (aVal aSgn bVal bSgn kc : Word) (s : State) : Host.Outcome State Fault Refusal :=
  s.endCommand (mkpCheck s aVal.toNat aSgn.toNat bVal.toNat bSgn.toNat kc.toNat) fun t =>
    t.setActive fun l j =>
      mkpCell t aVal.toNat aSgn.toNat bVal.toNat bSgn.toNat kc.toNat l j

end Sys2Proof.Machine
end

