-- ==== Sys2Proof/Machine/RowDot.lean ====
section
/-! DEFINITION. The single-row bitmask dot: DOTR.N, DOTR.S and DOTR.T (45_rowdot). -/

namespace Sys2Proof.Machine

/-- The lane products P_0 .. P_{W-1}. -/
def laneProducts (w : Lanes) (lane : Nat → Byte) : List Byte :=
  (List.range (laneCount w)).map lane

/-- The writes of a DOTR: P_i at dst + i (45_rowdot R211). -/
def laneWrites (w : Lanes) (dst : Nat) (lane : Nat → Byte) : List Host.Cell :=
  (List.range (laneCount w)).map fun i => (dst + i, lane i)

/-- The effect of a DOTR: the lane products to DMEM, their wraparound sum to DOTRES (45_rowdot
R211, R215). -/
def State.storeLanes (s : State) (w : Lanes) (dst : Nat) (lane : Nat → Byte) : State :=
  { s.store (laneWrites w dst lane) with dotres := laneSum (laneProducts w lane) }

/-- The checks of DOTR.N (45_rowdot R211). -/
def dotrNCheck (s : State) (w : Lanes) (a b dst : Nat) : Except Cause Unit := do
  require (inDmem s.dmemSize a (laneCount w) && inDmem s.dmemSize b (laneCount w)
    && inDmem s.dmemSize dst (laneCount w)) .addrRange
  require (!overlaps dst (laneCount w) a (laneCount w)
    && !overlaps dst (laneCount w) b (laneCount w)) .overlap

/-- The checks of DOTR.S and DOTR.T (45_rowdot R212, R213). -/
def dotrMaskCheck (s : State) (w : Lanes) (a dst : Nat) : Except Cause Unit := do
  require (inDmem s.dmemSize a (laneCount w) && inDmem s.dmemSize dst (laneCount w)) .addrRange
  require (!overlaps dst (laneCount w) a (laneCount w)) .overlap

/-- DOTR.N a, b, dst: naive lane products (45_rowdot R211). -/
def execDotrN (w : Lanes) (a b dst : Word) (s : State) : Host.Outcome State Fault Refusal :=
  s.endCommand (dotrNCheck s w a.toNat b.toNat dst.toNat) fun t =>
    t.storeLanes w dst.toNat fun i =>
      naiveLane (t.read (a.toNat + i)) (t.read (b.toNat + i))

/-- DOTR.S a, vmask, smask, dst: shifted-mask derivation (45_rowdot R212). -/
def execDotrS (w : Lanes) (a : Word) (vmask smask : Half) (dst : Word) (s : State) :
    Host.Outcome State Fault Refusal :=
  s.endCommand (dotrMaskCheck s w a.toNat dst.toNat) fun t =>
    t.storeLanes w dst.toNat fun i =>
      shiftedLane (t.read (a.toNat + i)) (laneBit w vmask i) (laneBit w smask i)

/-- DOTR.T a, vmask, smask, dst: bit-test derivation (45_rowdot R213). -/
def execDotrT (w : Lanes) (a : Word) (vmask smask : Half) (dst : Word) (s : State) :
    Host.Outcome State Fault Refusal :=
  s.endCommand (dotrMaskCheck s w a.toNat dst.toNat) fun t =>
    t.storeLanes w dst.toNat fun i =>
      bitTestLane (t.read (a.toNat + i)) (laneBit w vmask i) (laneBit w smask i)

end Sys2Proof.Machine
end

