-- ==== Sys2Proof/Machine/Dispatch.lean ====
section
/-! DEFINITION. Which meaning each command has: one arm per constructor of `Instr`. -/

namespace Sys2Proof.Machine

/-- The meaning of a command (20_memory R55). -/
def exec (i : Instr) (s : State) : Host.Outcome State Fault Refusal :=
  match i with
  | .nop => Sys2Proof.Machine.execNop s
  | .cfg idx val => Sys2Proof.Machine.execCfg idx val s
  | .zfill dst len => Sys2Proof.Machine.execZfill dst len s
  | .xposeC2R src dst rows cols => Sys2Proof.Machine.execXposeC2R src dst rows cols s
  | .xposeR2C src dst rows cols => Sys2Proof.Machine.execXposeR2C src dst rows cols s
  | .cmpr src dv ds len => Sys2Proof.Machine.execCmpr src dv ds len s
  | .packA src dst row0 k0 mc kc => Sys2Proof.Machine.execPackA src dst row0 k0 mc kc s
  | .packAP sv ss dv ds row0 k0 mc kc => Sys2Proof.Machine.execPackAP sv ss dv ds row0 k0 mc kc s
  | .packB src dst col0 k0 nc kc => Sys2Proof.Machine.execPackB src dst col0 k0 nc kc s
  | .packBP sv ss dv ds col0 k0 nc kc => Sys2Proof.Machine.execPackBP sv ss dv ds col0 k0 nc kc s
  | .tclr => Sys2Proof.Machine.execTclr s
  | .tld cbase row0 col0 => Sys2Proof.Machine.execTld cbase row0 col0 s
  | .tst cbase row0 col0 => Sys2Proof.Machine.execTst cbase row0 col0 s
  | .mkr a b kc => Sys2Proof.Machine.execMkr a b kc s
  | .mkp aVal aSgn bVal bSgn kc => Sys2Proof.Machine.execMkp aVal aSgn bVal bSgn kc s
  | .dotrN w a b dst => Sys2Proof.Machine.execDotrN w a b dst s
  | .dotrS w a vmask smask dst => Sys2Proof.Machine.execDotrS w a vmask smask dst s
  | .dotrT w a vmask smask dst => Sys2Proof.Machine.execDotrT w a vmask smask dst s

end Sys2Proof.Machine
end

