-- ==== Sys2Proof/Machine/Block.lean ====
section
/-! DEFINITION. The BLOCK's turn: running the descriptor in CMD as one step (20_memory R55), and
the soft reset that waited for its end (70_reset_and_hazards R262). -/

namespace Sys2Proof.Machine

/-- The descriptor in CMD[0..7] runs, or its encoding faults (30_encoding R81, R79, R80). -/
def State.runCommand (s : State) : Host.Outcome State Fault Refusal :=
  match decode s.cmd with
  | .ok i => exec i s
  | .error c => .next (s.raise c)

/-- The block's turn: a command while BUSY = 1, with the pending soft reset in the same step;
nothing while idle (20_memory R55, 70_reset_and_hazards R262, R276, log 10). -/
def State.blockStep (s : State) : Host.Outcome State Fault Refusal :=
  if s.busy then
    match s.runCommand with
    | .next t => .next t.applyPendingReset
    | .fault r => .fault r
    | .refused r => .refused r
  else .next s

/-- The state after the running command's end: the 'after' of 20_memory R63 and of
70_reset_and_hazards R263. -/
def State.afterCommand (s : State) : State :=
  match s.blockStep with
  | .next t => t
  | .fault _ => s
  | .refused _ => s

end Sys2Proof.Machine
end

