-- ==== Sys2Proof/Machine/HostPort.lean ====
section
/-! DEFINITION. The HOST's turn: the register port (10_state §2, §3), the DMEM port
(20_memory §4), host-protocol errors (60_exceptions R241, R242) and rst_n
(70_reset_and_hazards R260 to R263). -/

namespace Sys2Proof.Machine

/-! ### Widths and alignment (20_memory R61, R62) -/

/-- The bytes an access moves. -/
def AccessWidth.bytes : AccessWidth → Nat
  | .byte => 1
  | .half => 2
  | .word => 4

/-- A datum cut to an access's width, zero-extended to 32 bits (log 5). -/
def AccessWidth.fit (width : AccessWidth) (v : Word) : Word :=
  match width with
  | .byte => (v.extractLsb' 0 8).setWidth 32
  | .half => (v.extractLsb' 0 16).setWidth 32
  | .word => v

/-- A DMEM access that is naturally aligned and inside DMEM (20_memory R62). -/
def dmemAccessOk (size : Nat) (width : AccessWidth) (addr : Nat) : Bool :=
  addr % width.bytes == 0 && decide (addr + width.bytes ≤ size)

/-- A register-port access that is a word-aligned 32-bit access (20_memory R62). -/
def regAccessOk (width : AccessWidth) (off : Nat) : Bool :=
  width == .word && off % 4 == 0

/-- The offset of a host-bus address in a port at `base` (20_memory R60, log 13). -/
def portOffset (base busAddr : Nat) : Option Nat :=
  if base ≤ busAddr then some (busAddr - base) else none

/-- The register offset behind a host-bus address (20_memory R60, log 13). -/
def regOffsetOfBus (busAddr : Nat) : Option Nat := portOffset Config.regBase busAddr

/-- The DMEM address behind a host-bus address (20_memory R60, log 13). -/
def dmemAddrOfBus (busAddr : Nat) : Option Nat := portOffset Config.dmemBase busAddr

/-! ### Free values (log 6) -/

/-- The host gets `v` from its read. -/
def State.answer (s : State) (v : Word) : State := { s with hostData := v }

/-- A free value was taken. -/
def State.tick (s : State) : State := { s with freeTick := s.freeTick + 1 }

/-- The host gets any value of the access's width (20_memory R62, R63). -/
def State.answerAny (s : State) (width : AccessWidth) : State :=
  (s.answer (width.fit (Config.freeHostRead s.freeTick))).tick

/-! ### The register port (10_state R23) -/

/-- The registers of the port (10_state R23). -/
inductive Reg where
  | id
  | ctrl
  | status
  | retired
  | dotres
  | n
  | mr
  | nr
  | cmd (i : Fin 8)
  | reserved
  deriving DecidableEq, Repr

/-- The register at an offset of the port (10_state R23, R32). -/
def regAt (off : Nat) : Reg :=
  if off = 0x000 then .id
  else if off = 0x004 then .ctrl
  else if off = 0x008 then .status
  else if off = 0x00C then .retired
  else if off = 0x010 then .dotres
  else if off = 0x014 then .n
  else if off = 0x018 then .mr
  else if off = 0x01C then .nr
  else if 0x040 ≤ off ∧ off % 4 = 0 then
    if h : (off - 0x040) / 4 < 8 then .cmd ⟨(off - 0x040) / 4, h⟩ else .reserved
  else .reserved

/-- A register read while the block is idle (10_state R23 to R32). -/
def State.readReg (s : State) : Reg → Word
  | .id => Config.idWord
  | .ctrl => 0
  | .status => s.status
  | .retired => s.retired
  | .dotres => s.dotres.setWidth 32
  | .n => s.csrN.setWidth 32
  | .mr => s.csrMR.setWidth 32
  | .nr => s.csrNR.setWidth 32
  | .cmd i => s.cmd[i]
  | .reserved => 0

/-- A field read while BUSY = 1: its value before the command or after it (20_memory R63). -/
def State.seen {α : Type} (s : State) (field : Nat) (before after : α) : α :=
  if Config.freeSeenAfter s.freeTick field then after else before

/-- A register read while BUSY = 1: STATUS, RETIRED, DOTRES and the CSR views field by field before
or after, ID and CMD exact; BUSY itself reads 1 (10_state R34, 20_memory R57, R63, log 7, log 23). -/
def State.readRegBusy (s : State) : Reg → Word
  | .status =>
    packStatus (s.seen 0 s.fopc s.afterCommand.fopc) (s.seen 1 s.cause s.afterCommand.cause)
      (s.seen 2 s.herr s.afterCommand.herr) (s.seen 3 s.fault s.afterCommand.fault) true
  | .retired => s.seen 4 s.retired s.afterCommand.retired
  | .dotres => (s.seen 5 s.dotres s.afterCommand.dotres).setWidth 32
  | .n => (s.seen 6 s.csrN s.afterCommand.csrN).setWidth 32
  | .mr => (s.seen 7 s.csrMR s.afterCommand.csrMR).setWidth 32
  | .nr => (s.seen 8 s.csrNR s.afterCommand.csrNR).setWidth 32
  | .id => s.readReg .id
  | .ctrl => s.readReg .ctrl
  | .cmd i => s.readReg (.cmd i)
  | .reserved => s.readReg .reserved

/-- A host read of the register port (20_memory R62, R63). -/
def State.hostRegRead (s : State) (width : AccessWidth) (off : Nat) : State :=
  if regAccessOk width off then
    if s.busy then (s.answer (s.readRegBusy (regAt off))).tick
    else s.answer (s.readReg (regAt off))
  else (s.answerAny width).setHerr

/-- A CTRL write (10_state R29): SRST at once while idle, at the command's end while busy
(70_reset_and_hazards R260, R262), and it drops a GO of the same write; a GO while BUSY = 1 or
FAULT = 1 is dropped with HERR (60_exceptions R237, R242). -/
def State.writeCtrl (s : State) (v : Word) : State :=
  if v.getLsbD 1 then
    if s.busy then { s with srstPending := true } else s.resetRegisters
  else if v.getLsbD 0 then
    if s.busy || s.fault then s.setHerr else { s with busy := true }
  else s

/-- A host write of a register: CTRL acts, CMD[i] is written while idle and refused with HERR
while busy, every other register ignores it (10_state R23, R28, R32, 20_memory R63). -/
def State.writeReg (s : State) (r : Reg) (v : Word) : State :=
  match r with
  | .ctrl => s.writeCtrl v
  | .cmd i => if s.busy then s.setHerr else { s with cmd := s.cmd.set i v }
  | .id => s
  | .status => s
  | .retired => s
  | .dotres => s
  | .n => s
  | .mr => s
  | .nr => s
  | .reserved => s

/-- A host write of the register port (20_memory R62). -/
def State.hostRegWrite (s : State) (width : AccessWidth) (off : Nat) (v : Word) : State :=
  if regAccessOk width off then s.writeReg (regAt off) v else s.setHerr

/-! ### The DMEM port (20_memory R60 to R63) -/

/-- The datum of a DMEM read, the byte at the lowest address in bits [7:0] (20_memory R61). -/
def State.readDatum (s : State) (width : AccessWidth) (addr : Nat) : Word :=
  match width with
  | .byte => (s.read addr).setWidth 32
  | .half => (s.read (addr + 1) ++ s.read addr).setWidth 32
  | .word => (s.read (addr + 3) ++ s.read (addr + 2)) ++ (s.read (addr + 1) ++ s.read addr)

/-- The writes of a DMEM write of `v`: byte t is v[8t+7:8t] (20_memory R61). -/
def datumWrites (width : AccessWidth) (addr : Nat) (v : Word) : List Host.Cell :=
  (List.range width.bytes).map fun t => (addr + t, v.extractLsb' (8 * t) 8)

/-- A host read of the DMEM port (20_memory R61 to R63). -/
def State.hostDmemRead (s : State) (width : AccessWidth) (addr : Nat) : State :=
  if !s.busy && dmemAccessOk s.dmemSize width addr then s.answer (s.readDatum width addr)
  else (s.answerAny width).setHerr

/-- A host write of the DMEM port (20_memory R61 to R63). -/
def State.hostDmemWrite (s : State) (width : AccessWidth) (addr : Nat) (v : Word) : State :=
  if !s.busy && dmemAccessOk s.dmemSize width addr then s.store (datumWrites width addr v)
  else s.setHerr

/-! ### rst_n (70_reset_and_hazards R260, R261, R263) -/

/-- rst_n: the reset at once; a running command ends with each byte of its written regions old or
new (70_reset_and_hazards R263, log 8). -/
def State.hardReset (s : State) : State :=
  if s.busy then
    ({ s with
        dmem := Memory.mix (Config.freeLanded s.freeTick) s.dmem s.afterCommand.dmem
        } : State).tick.resetRegisters
  else s.resetRegisters

/-- One access of the host. -/
def State.hostAccess (s : State) : HostAccess → State
  | .regRead width off => s.hostRegRead width off
  | .regWrite width off v => s.hostRegWrite width off v
  | .dmemRead width addr => s.hostDmemRead width addr
  | .dmemWrite width addr v => s.hostDmemWrite width addr v
  | .hardReset => s.hardReset

end Sys2Proof.Machine
end

