-- ==== Sys2Proof/Machine/Step.lean ====
section
/-! DEFINITION. One step of the machine: the HOST's next turn, or the BLOCK's (00_scope R9,
log 3), and placing a command where the block's next turn runs it (log 4). -/

namespace Sys2Proof.Machine

/-- One step: the host's access if its next event is one; else the block's turn, after the host's
`yield` if that is what stands first, or because the host has nothing left to do. -/
def step (s : State) : Host.Outcome State Fault Refusal :=
  match s.host with
  | .access a :: rest => .next (({ s with host := rest } : State).hostAccess a)
  | .yield :: rest => ({ s with host := rest } : State).blockStep
  | [] => s.blockStep

/-- `s` with the command whose bits are `w` in CMD[0..7] and its GO accepted, the block to move
next: what the host's CMD writes and CTRL.GO leave (10_state R28, R29, log 4). -/
def State.withFetchWord (s : State) (nbits w : Nat) : State :=
  { s with
    cmd := descriptorOfBits nbits w
    busy := true
    host := match s.host with
      | .access a :: rest => .yield :: .access a :: rest
      | .yield :: rest => .yield :: rest
      | [] => [] }

end Sys2Proof.Machine
end

