-- ==== Sys2Proof/Safety.lean ====
section
/-! DEFINITION. What is true of every state of the block, and what a command may change: the
terms the statements use. -/

namespace Sys2Proof.Machine

/-- A tile width register is unset or legal (10_state R24). -/
def tileWidthLegal (m : BitVec 5) : Bool := m == 0#5 || m == 8#5 || m == 16#5

/-- STATUS is consistent: without FAULT, CAUSE and FOPC are 0; with FAULT, CAUSE is a code of
60_exceptions R231 and the block is idle (10_state R26, 60_exceptions R236, R237). -/
def State.statusLegal (s : State) : Bool :=
  if s.fault then
    decide (1 ≤ s.cause.toNat ∧ s.cause.toNat ≤ 9) && !s.busy
  else s.cause == 0#8 && s.fopc == 0#8

/-- DMEM is in canonical form and inside DMEM_SIZE, which is a legal size (20_memory R50). -/
def State.memoryLegal (s : State) : Bool :=
  Memory.wf s.dmem && Memory.within s.dmemSize s.dmem
    && decide (1 ≤ s.dmemSize ∧ s.dmemSize ≤ 2 ^ 32)

/-- The invariant of the machine: legal tile widths (10_state R24), a consistent STATUS, a legal
DMEM, and a soft reset pending only while a command runs (70_reset_and_hazards R262). -/
def State.inv (s : State) : Bool :=
  tileWidthLegal s.csrMR && tileWidthLegal s.csrNR && s.statusLegal && s.memoryLegal
    && (s.busy || !s.srstPending)

/-- A host event that can reset the block: rst_n, or a CTRL write with SRST = 1
(70_reset_and_hazards R260). -/
def HostEvent.resets : HostEvent → Bool
  | .access .hardReset => true
  | .access (.regWrite width off v) =>
    regAccessOk width off && regAt off == .ctrl && v.getLsbD 1
  | .access (.regRead _ _) => false
  | .access (.dmemRead _ _) => false
  | .access (.dmemWrite _ _ _) => false
  | .yield => false

/-- The block moves next: the host yields or has nothing left to do (log 3). -/
def State.hostWaits (s : State) : Bool :=
  match s.host with
  | [] => true
  | .yield :: _ => true
  | .access _ :: _ => false

/-- `s` with the host's turn taken off its list. -/
def State.turnTaken (s : State) : State := { s with host := s.host.tail }

/-! ### What a retired command keeps (20_memory R55) -/

/-- `t` is `s` after a command that retired and wrote nothing but DMEM. -/
def RetiredWritingMemory (s t : State) : Prop :=
  t = { s with retired := s.retired + 1, busy := false, dmem := t.dmem }

/-- `t` is `s` after a command that retired and wrote nothing but ACC. -/
def RetiredWritingAcc (s t : State) : Prop :=
  t = { s with retired := s.retired + 1, busy := false, acc := t.acc }

/-- `t` is `s` after a command that retired and wrote nothing but DMEM and DOTRES. -/
def RetiredWritingDot (s t : State) : Prop :=
  t = { s with retired := s.retired + 1, busy := false, dmem := t.dmem, dotres := t.dotres }

/-! ### The checks per command (60_exceptions R235), as conditions and in no order -/

/-- For each command, when each cause applies to it (60_exceptions R235). -/
def faultConditions (s : State) : Instr → List (Cause × Bool)
  | .nop => []
  | .cfg idx val => [(.badCfg, !legalCfg idx val)]
  | .zfill dst len => [(.addrRange, !inDmem s.dmemSize dst.toNat len.toNat)]
  | .xposeC2R src dst rows cols => xposeConditions src.toNat dst.toNat (rows.toNat * cols.toNat)
  | .xposeR2C src dst rows cols => xposeConditions src.toNat dst.toNat (rows.toNat * cols.toNat)
  | .cmpr src dv ds len =>
    [ (.notTernary, (List.range len.toNat).any fun t => !isTernary (s.read (src.toNat + t))),
      (.overlap, overlaps src.toNat len.toNat dv.toNat (len.toNat / 8)
        || overlaps src.toNat len.toNat ds.toNat (len.toNat / 8)
        || overlaps dv.toNat (len.toNat / 8) ds.toNat (len.toNat / 8)),
      (.addrRange, !inDmem s.dmemSize src.toNat len.toNat
        || !inDmem s.dmemSize dv.toNat (len.toNat / 8)
        || !inDmem s.dmemSize ds.toNat (len.toNat / 8)),
      (.notDivisible, len.toNat % 8 != 0) ]
  | .packA src dst row0 k0 mc kc =>
    rawConditions s.csrMR.toNat src.toNat dst.toNat row0.toNat mc.toNat k0.toNat kc.toNat
  | .packB src dst col0 k0 nc kc =>
    rawConditions s.csrNR.toNat src.toNat dst.toNat col0.toNat nc.toNat k0.toNat kc.toNat
  | .packAP sv ss dv ds row0 k0 mc kc =>
    packedConditions s.csrMR.toNat sv.toNat ss.toNat dv.toNat ds.toNat row0.toNat mc.toNat
      k0.toNat kc.toNat
  | .packBP sv ss dv ds col0 k0 nc kc =>
    packedConditions s.csrNR.toNat sv.toNat ss.toNat dv.toNat ds.toNat col0.toNat nc.toNat
      k0.toNat kc.toNat
  | .tclr => []
  | .tld cbase row0 col0 => tileConditions cbase.toNat row0.toNat col0.toNat
  | .tst cbase row0 col0 => tileConditions cbase.toNat row0.toNat col0.toNat
  | .mkr a b kc =>
    [ (.addrRange, !inDmem s.dmemSize a.toNat (kc.toNat * s.csrMR.toNat)
        || !inDmem s.dmemSize b.toNat (kc.toNat * s.csrNR.toNat)),
      (.cfgUnset, s.csrMR == 0 || s.csrNR == 0) ]
  | .mkp aVal aSgn bVal bSgn kc =>
    [ (.addrRange, !inDmem s.dmemSize aVal.toNat (kc.toNat / 8 * s.csrMR.toNat)
        || !inDmem s.dmemSize aSgn.toNat (kc.toNat / 8 * s.csrMR.toNat)
        || !inDmem s.dmemSize bVal.toNat (kc.toNat / 8 * s.csrNR.toNat)
        || !inDmem s.dmemSize bSgn.toNat (kc.toNat / 8 * s.csrNR.toNat)),
      (.notDivisible, kc.toNat % 8 != 0),
      (.cfgUnset, s.csrMR == 0 || s.csrNR == 0) ]
  | .dotrN w a b dst =>
    [ (.overlap, overlaps dst.toNat (laneCount w) a.toNat (laneCount w)
        || overlaps dst.toNat (laneCount w) b.toNat (laneCount w)),
      (.addrRange, !inDmem s.dmemSize a.toNat (laneCount w)
        || !inDmem s.dmemSize b.toNat (laneCount w)
        || !inDmem s.dmemSize dst.toNat (laneCount w)) ]
  | .dotrS w a _ _ dst => dotrConditions w a.toNat dst.toNat
  | .dotrT w a _ _ dst => dotrConditions w a.toNat dst.toNat
where
  xposeConditions (src dst size : Nat) : List (Cause × Bool) :=
    [ (.overlap, overlaps src size dst size),
      (.addrRange, !inDmem s.dmemSize src size || !inDmem s.dmemSize dst size) ]
  geometryConditions : List (Cause × Bool) :=
    [ (.notDivisible, s.csrN.toNat % s.csrMR.toNat != 0 || s.csrN.toNat % s.csrNR.toNat != 0),
      (.cfgUnset, s.csrN == 0 || s.csrMR == 0 || s.csrNR == 0) ]
  rawConditions (width src dst p0 ext k0 kc : Nat) : List (Cause × Bool) :=
    [ (.overlap, overlaps dst (ext * kc) src (s.csrN.toNat * s.csrN.toNat)),
      (.addrRange, !inDmem s.dmemSize src (s.csrN.toNat * s.csrN.toNat)
        || !inDmem s.dmemSize dst (ext * kc)),
      (.dimBounds, decide (s.csrN.toNat < p0 + ext) || decide (s.csrN.toNat < k0 + kc)),
      (.notDivisible, ext % width != 0) ] ++ geometryConditions
  packedConditions (width sv ss dv ds p0 ext k0 kc : Nat) : List (Cause × Bool) :=
    [ (.overlap, overlaps dv (ext * (kc / 8)) ds (ext * (kc / 8))
        || overlaps dv (ext * (kc / 8)) sv (s.csrN.toNat * s.csrN.toNat / 8)
        || overlaps dv (ext * (kc / 8)) ss (s.csrN.toNat * s.csrN.toNat / 8)
        || overlaps ds (ext * (kc / 8)) sv (s.csrN.toNat * s.csrN.toNat / 8)
        || overlaps ds (ext * (kc / 8)) ss (s.csrN.toNat * s.csrN.toNat / 8)),
      (.addrRange, !inDmem s.dmemSize sv (s.csrN.toNat * s.csrN.toNat / 8)
        || !inDmem s.dmemSize ss (s.csrN.toNat * s.csrN.toNat / 8)
        || !inDmem s.dmemSize dv (ext * (kc / 8)) || !inDmem s.dmemSize ds (ext * (kc / 8))),
      (.dimBounds, decide (s.csrN.toNat < p0 + ext) || decide (s.csrN.toNat < k0 + kc)),
      (.notDivisible, ext % width != 0 || k0 % 8 != 0 || kc % 8 != 0) ] ++ geometryConditions
  tileConditions (cbase row0 col0 : Nat) : List (Cause × Bool) :=
    [ (.addrRange, !inDmem s.dmemSize cbase (s.csrN.toNat * s.csrN.toNat)),
      (.dimBounds, decide (s.csrN.toNat < row0 + s.csrMR.toNat)
        || decide (s.csrN.toNat < col0 + s.csrNR.toNat)) ] ++ geometryConditions
  dotrConditions (w : Lanes) (a dst : Nat) : List (Cause × Bool) :=
    [ (.overlap, overlaps dst (laneCount w) a (laneCount w)),
      (.addrRange, !inDmem s.dmemSize a (laneCount w) || !inDmem s.dmemSize dst (laneCount w)) ]

/-- The cause applies to the decoded command in this state (60_exceptions R235). -/
def causeApplies (s : State) (i : Instr) (c : Cause) : Bool :=
  (faultConditions s i).contains (c, true)

/-- The encoding cause applies to the control word (30_encoding R79, R80). -/
def encodingCauseApplies (w : Word) (c : Cause) : Bool :=
  match c with
  | .illegalOpcode => !definedOpcodes.contains (opcField w)
  | .reservedEnc =>
    resField w != 0#16 || flagsField w &&& ~~~(allowedFlags (opcField w)) != 0#8
      || (opcField w == 0x50#8 && dotrV (flagsField w) == 3#2)
  | .cfgUnset => false
  | .badCfg => false
  | .notDivisible => false
  | .dimBounds => false
  | .addrRange => false
  | .overlap => false
  | .notTernary => false

/-- The cause applies to the descriptor in CMD[0..7] (60_exceptions R231, R233). -/
def descriptorCauseApplies (s : State) (c : Cause) : Bool :=
  encodingCauseApplies s.cmd[0] c ||
    match decode s.cmd with
    | .ok i => causeApplies s i c
    | .error _ => false

/-! ### The operand words a command reads (30_encoding R85) -/

/-- The operand words of CMD[1..7] a mnemonic uses; the others are ignored (30_encoding R74,
R85). -/
def usedWords : Mnemonic → List (Fin 8)
  | .nop => []
  | .cfg => [1, 2]
  | .zfill => [1, 2]
  | .xposeC2R => [1, 2, 3, 4]
  | .xposeR2C => [1, 2, 3, 4]
  | .cmpr => [1, 2, 3, 4]
  | .packA => [1, 3, 5, 6]
  | .packAP => [1, 2, 3, 4, 5, 6]
  | .packB => [1, 3, 5, 6]
  | .packBP => [1, 2, 3, 4, 5, 6]
  | .tclr => []
  | .tld => [1, 2]
  | .tst => [1, 2]
  | .mkr => [1, 2, 3]
  | .mkp => [1, 2, 3, 4, 5]
  | .dotrN => [1, 2, 5]
  | .dotrS => [1, 3, 4, 5]
  | .dotrT => [1, 3, 4, 5]

end Sys2Proof.Machine
end

