-- ==== Sys2Proof/Certificates/Slice0/Obligations.lean ====
section
/-! DEFINITION. The statements about the block, from the numbered rules of the spec: encoding,
one result with its frame per command, the faults, the host's ports, reset, and the properties of
the whole machine. -/

open Sys2Proof Sys2Proof.Machine

/-! ### Steps -/

/-- 20_memory R55, 10_state R21: with BUSY = 1 and the block to move, a descriptor that decodes to
a command runs: the step is exec of that command, then the soft reset that waited for its end. -/
def Obligations.StepRunsDecodedCommand : Prop :=
  ∀ (s t : State) (i : Instr), s.hostWaits = true → s.busy = true → decode s.cmd = .ok i →
    exec i s.turnTaken = .next t →
    step s = .next (if t.srstPending then t.resetRegisters else t)

/-- The same for the interface's placed command: the step after withFetchWord runs it. -/
def Obligations.PlacedCommandRunsNext : Prop :=
  ∀ (s : State) (nbits w : Nat) (i : Instr), s.srstPending = false →
    decodeTableWord nbits w = some i →
    ∃ t, exec i (s.withFetchWord nbits w).turnTaken = .next t ∧
      step (s.withFetchWord nbits w) = .next t

/-- 00_scope R9, 60_exceptions R247: the host's access is one step of its own, and an idle block
'does nothing until the next accepted GO'. That the host's list says who moves is the model's
choice (log 3); that an idle turn takes only the turn off is its reading of R247 (log 10). -/
def Obligations.HostAccessOrIdleTurnIsOneStep : Prop :=
  ∀ s : State,
    (∀ a, s.host.head? = some (.access a) → step s = .next (s.turnTaken.hostAccess a)) ∧
    (s.hostWaits = true → s.busy = false → step s = .next s.turnTaken)

/-- Every state has a next state: no command and no host access stops the machine. The model's
choice to have no stop is log 16. -/
def Obligations.EveryStateHasNextState : Prop :=
  ∀ s : State, ∃ t, step s = .next t

/-! ### Encoding -/

/-- Words written out from 30_encoding R76, R85 and 95_test_vectors part 3. -/
def Obligations.SpecWordsDecode : Prop :=
  decode #v[0x00000001#32, 0x00000000#32, 0x00000010#32, 0, 0, 0, 0, 0] = .ok (.cfg 0 16) ∧
  decode #v[0x00000110#32, 0x00000400#32, 0x00000440#32, 0x00000010#32, 0x00000002#32, 0, 0, 0]
    = .ok (.xposeR2C 0x400 0x440 16 2) ∧
  decode #v[0x00000020#32, 0x00000000#32, 0, 0x00000400#32, 0, 0x00020008#32, 0x00030008#32, 0]
    = .ok (.packA 0 0x400 8 2 8 3) ∧
  decode #v[0x00000032#32, 0x00000200#32, 0x00080000#32, 0, 0, 0, 0, 0]
    = .ok (.tst 0x200 0 8) ∧
  decode #v[0x00000041#32, 0x00000500#32, 0x00000520#32, 0x00000540#32, 0x00000560#32,
      0x00000010#32, 0, 0] = .ok (.mkp 0x500 0x520 0x540 0x560 16) ∧
  decode #v[0x00000550#32, 0x00000000#32, 0, 0x0000FBFB#32, 0x0000F2F2#32, 0x00000040#32, 0, 0]
    = .ok (.dotrT .w16 0 0xFBFB 0xF2F2 0x40)

/-- 30_encoding R85, R86: decoding the words of any well-formed command gives it back, with every
operand at every value its field admits. -/
def Obligations.DecodeOfEncodeIsTheCommand : Prop :=
  ∀ i : Instr, i.wellFormed = true → decode (encode i) = .ok i

/-- 30_encoding R74, R85: what the decoder gives is well-formed, and encoding it again writes the
same control word and the same used operand words, but for a DOTR's masks, of which the bits above
W-1 are 0. -/
def Obligations.DecodedCommandIsItsDescriptor : Prop :=
  ∀ (d : Descriptor) (i : Instr), decode d = .ok i →
    i.wellFormed = true ∧ (encode i)[0] = d[0] ∧
      ∀ k ∈ usedWords i.mnemonic,
        (encode i)[k] = d[k] ∨
          (d[0].getLsbD 8 = false ∧ (i.mnemonic = .dotrS ∨ i.mnemonic = .dotrT)
            ∧ (k = 3 ∨ k = 4) ∧ (encode i)[k] = d[k] &&& 0xFF#32) ∨
          (d[0].getLsbD 8 = true ∧ (i.mnemonic = .dotrS ∨ i.mnemonic = .dotrT)
            ∧ (k = 3 ∨ k = 4) ∧ (encode i)[k] = d[k] &&& 0xFFFF#32)

/-- 30_encoding R76: the map's rows, the row a word decodes to, and that at most one row matches. -/
def Obligations.ControlWordDecodesToItsRow : Prop :=
  (opcodeMap.map fun r => (r.mnemonic, r.pattern, r.mask)) =
    [ (.nop, 0x00000000#32, 0xFFFFFFFF#32), (.cfg, 0x00000001#32, 0xFFFFFFFF#32),
      (.zfill, 0x00000002#32, 0xFFFFFFFF#32), (.xposeC2R, 0x00000010#32, 0xFFFFFFFF#32),
      (.xposeR2C, 0x00000110#32, 0xFFFFFFFF#32), (.cmpr, 0x00000011#32, 0xFFFFFFFF#32),
      (.packA, 0x00000020#32, 0xFFFFFFFF#32), (.packAP, 0x00000120#32, 0xFFFFFFFF#32),
      (.packB, 0x00000021#32, 0xFFFFFFFF#32), (.packBP, 0x00000121#32, 0xFFFFFFFF#32),
      (.tclr, 0x00000030#32, 0xFFFFFFFF#32), (.tld, 0x00000031#32, 0xFFFFFFFF#32),
      (.tst, 0x00000032#32, 0xFFFFFFFF#32), (.mkr, 0x00000040#32, 0xFFFFFFFF#32),
      (.mkp, 0x00000041#32, 0xFFFFFFFF#32), (.dotrN, 0x00000050#32, 0xFFFFFEFF#32),
      (.dotrS, 0x00000250#32, 0xFFFFFEFF#32), (.dotrT, 0x00000450#32, 0xFFFFFEFF#32) ] ∧
  (∀ (w : Word) (m : Mnemonic),
    decodeControl w = .ok m ↔ ∃ r ∈ opcodeMap, w &&& r.mask = r.pattern ∧ r.mnemonic = m) ∧
  (∀ (w : Word), ∀ r ∈ opcodeMap, ∀ r' ∈ opcodeMap,
    w &&& r.mask = r.pattern → w &&& r'.mask = r'.pattern → r = r')

/-- 30_encoding R79: an undefined OPC faults ILLEGAL_OPCODE, code 0x01, whatever its other
bits, and nothing else is an illegal opcode. -/
def Obligations.UndefinedOpcodeIsIllegal : Prop :=
  (∀ w : Word, decodeControl w = .error .illegalOpcode ↔
    w.extractLsb' 0 8 ∉ ([0x00#8, 0x01#8, 0x02#8, 0x10#8, 0x11#8, 0x20#8, 0x21#8, 0x30#8, 0x31#8,
      0x32#8, 0x40#8, 0x41#8, 0x50#8] : List Byte)) ∧
  (∀ s : State,
    s.cmd[0].extractLsb' 0 8 ∉ ([0x00#8, 0x01#8, 0x02#8, 0x10#8, 0x11#8, 0x20#8, 0x21#8, 0x30#8,
      0x31#8, 0x32#8, 0x40#8, 0x41#8, 0x50#8] : List Byte) →
    s.runCommand = .next { s with
      cause := 0x01#8, fopc := s.cmd[0].extractLsb' 0 8, fault := true, busy := false })

/-- 30_encoding R72, R73, R80: exactly the reserved encodings of a defined OPC are RESERVED_ENC: a
RES bit set, a FLAGS bit other than bit 0 of XPOSE, PACKA, PACKB and bits 2..0 of DOTR, or DOTR
with V = 3. -/
def Obligations.ReservedEncodingsFault : Prop :=
  (∀ w : Word, decodeControl w = .error .reservedEnc ↔
    w.extractLsb' 0 8 ∈ ([0x00#8, 0x01#8, 0x02#8, 0x10#8, 0x11#8, 0x20#8, 0x21#8, 0x30#8, 0x31#8,
      0x32#8, 0x40#8, 0x41#8, 0x50#8] : List Byte) ∧
    ((∃ b, 16 ≤ b ∧ b < 32 ∧ w.getLsbD b = true) ∨
      (∃ b, 11 ≤ b ∧ b < 16 ∧ w.getLsbD b = true) ∨
      (∃ b, 9 ≤ b ∧ b < 11 ∧ w.getLsbD b = true ∧ w.extractLsb' 0 8 ≠ 0x50#8) ∨
      (w.getLsbD 8 = true ∧
        w.extractLsb' 0 8 ∉ ([0x10#8, 0x20#8, 0x21#8, 0x50#8] : List Byte)) ∨
      (w.extractLsb' 0 8 = 0x50#8 ∧ w.getLsbD 9 = true ∧ w.getLsbD 10 = true))) ∧
  (∀ s : State, decodeControl s.cmd[0] = .error .reservedEnc →
    s.runCommand = .next { s with
      cause := 0x02#8, fopc := s.cmd[0].extractLsb' 0 8, fault := true, busy := false })

/-- 30_encoding R74, R85: an operand word a command ignores has no effect on what is decoded. -/
def Obligations.IgnoredWordsHaveNoEffect : Prop :=
  ∀ (d e : Descriptor) (m : Mnemonic), decodeControl d[0] = .ok m → d[0] = e[0] →
    (∀ k ∈ usedWords m, d[k] = e[k]) → decode d = decode e

/-! ### Control commands -/

/-- 40_control R100. -/
def Obligations.NopOnlyRetires : Prop :=
  ∀ s : State, exec .nop s = .next { s with retired := s.retired + 1, busy := false }

/-- 40_control R102: the legal pairs of CFG. -/
def Obligations.CfgLegalityIsTheRule : Prop :=
  ∀ idx val : Word, legalCfg idx val = true ↔
    (idx = 0 ∧ 1 ≤ val.toNat ∧ val.toNat ≤ 65535) ∨
    (idx = 1 ∧ (val = 8 ∨ val = 16)) ∨ (idx = 2 ∧ (val = 8 ∨ val = 16))

/-- 40_control R101: a legal CFG writes the one register, with the value it was given; an illegal
one faults BAD_CFG and leaves the registers. -/
def Obligations.CfgWritesOneRegister : Prop :=
  ∀ (idx val : Word) (s : State),
    (idx = 0 → 1 ≤ val.toNat → val.toNat ≤ 65535 →
      ∃ t, exec (.cfg idx val) s = .next t ∧ t.csrN.toNat = val.toNat ∧
        t = { s with retired := s.retired + 1, busy := false, csrN := t.csrN }) ∧
    (idx = 1 → val = 8 ∨ val = 16 →
      ∃ t, exec (.cfg idx val) s = .next t ∧ t.csrMR.toNat = val.toNat ∧
        t = { s with retired := s.retired + 1, busy := false, csrMR := t.csrMR }) ∧
    (idx = 2 → val = 8 ∨ val = 16 →
      ∃ t, exec (.cfg idx val) s = .next t ∧ t.csrNR.toNat = val.toNat ∧
        t = { s with retired := s.retired + 1, busy := false, csrNR := t.csrNR }) ∧
    (¬((idx = 0 ∧ 1 ≤ val.toNat ∧ val.toNat ≤ 65535) ∨
        ((idx = 1 ∨ idx = 2) ∧ (val = 8 ∨ val = 16))) →
      exec (.cfg idx val) s = .next { s with
        cause := 0x04#8, fopc := s.cmd[0].extractLsb' 0 8, fault := true, busy := false })

/-- 40_control R103: the region reads 0, every other byte as before. -/
def Obligations.ZfillZeroesItsRegion : Prop :=
  ∀ (dst len : Word) (s : State), Memory.wf s.dmem = true →
    (len.toNat = 0 ∨ dst.toNat + len.toNat ≤ s.dmemSize) →
    ∃ t, exec (.zfill dst len) s = .next t ∧ RetiredWritingMemory s t ∧
      ∀ a, t.read a =
        if dst.toNat ≤ a ∧ a < dst.toNat + len.toNat then 0#8 else s.read a

/-! ### Codec -/

/-- 41_codec R120: element (r, c) goes from src + r + rows·c to dst + c + cols·r. -/
def Obligations.XposeC2RReordersToRowMajor : Prop :=
  ∀ (src dst rows cols : Word) (s : State), Memory.wf s.dmem = true →
    inDmem s.dmemSize src.toNat (rows.toNat * cols.toNat) = true →
    inDmem s.dmemSize dst.toNat (rows.toNat * cols.toNat) = true →
    overlaps src.toNat (rows.toNat * cols.toNat) dst.toNat (rows.toNat * cols.toNat) = false →
    ∃ t, exec (.xposeC2R src dst rows cols) s = .next t ∧ RetiredWritingMemory s t ∧
      (∀ r c, r < rows.toNat → c < cols.toNat →
        t.read (dst.toNat + (c + cols.toNat * r)) = s.read (src.toNat + (r + rows.toNat * c))) ∧
      (∀ a, ¬(dst.toNat ≤ a ∧ a < dst.toNat + rows.toNat * cols.toNat) → t.read a = s.read a)

/-- 41_codec R121: element (r, c) goes from src + c + cols·r to dst + r + rows·c. -/
def Obligations.XposeR2CReordersToColumnMajor : Prop :=
  ∀ (src dst rows cols : Word) (s : State), Memory.wf s.dmem = true →
    inDmem s.dmemSize src.toNat (rows.toNat * cols.toNat) = true →
    inDmem s.dmemSize dst.toNat (rows.toNat * cols.toNat) = true →
    overlaps src.toNat (rows.toNat * cols.toNat) dst.toNat (rows.toNat * cols.toNat) = false →
    ∃ t, exec (.xposeR2C src dst rows cols) s = .next t ∧ RetiredWritingMemory s t ∧
      (∀ r c, r < rows.toNat → c < cols.toNat →
        t.read (dst.toNat + (r + rows.toNat * c)) = s.read (src.toNat + (c + cols.toNat * r))) ∧
      (∀ a, ¬(dst.toNat ≤ a ∧ a < dst.toNat + rows.toNat * cols.toNat) → t.read a = s.read a)

/-- 41_codec R121 'XPOSE.R2C with (rows, cols) undoes XPOSE.C2R with the same (rows, cols)': the
bytes at the third buffer are the original ones. -/
def Obligations.XposeR2CUndoesXposeC2R : Prop :=
  ∀ (src mid dst rows cols : Word) (s t u : State), Memory.wf s.dmem = true →
    exec (.xposeC2R src mid rows cols) s = .next t → t.retired = s.retired + 1 →
    exec (.xposeR2C mid dst rows cols) t = .next u → u.retired = t.retired + 1 →
    ∀ x, x < rows.toNat * cols.toNat → u.read (dst.toNat + x) = s.read (src.toNat + x)

/-- 41_codec R122: bit b of byte g of the two masks says of element 8g + b whether it is nonzero
and whether it is negative; every other byte as before. -/
def Obligations.CmprWritesValueAndSignMasks : Prop :=
  ∀ (src dv ds len : Word) (s : State), Memory.wf s.dmem = true →
    len.toNat % 8 = 0 →
    inDmem s.dmemSize src.toNat len.toNat = true →
    inDmem s.dmemSize dv.toNat (len.toNat / 8) = true →
    inDmem s.dmemSize ds.toNat (len.toNat / 8) = true →
    overlaps src.toNat len.toNat dv.toNat (len.toNat / 8) = false →
    overlaps src.toNat len.toNat ds.toNat (len.toNat / 8) = false →
    overlaps dv.toNat (len.toNat / 8) ds.toNat (len.toNat / 8) = false →
    (∀ x, x < len.toNat → s.read (src.toNat + x) = 0x00#8 ∨ s.read (src.toNat + x) = 0x01#8 ∨
      s.read (src.toNat + x) = 0xFF#8) →
    ∃ t, exec (.cmpr src dv ds len) s = .next t ∧ RetiredWritingMemory s t ∧
      (∀ g b, g < len.toNat / 8 → b < 8 →
        ((t.read (dv.toNat + g)).getLsbD b = true ↔ s.read (src.toNat + 8 * g + b) ≠ 0#8) ∧
        ((t.read (ds.toNat + g)).getLsbD b = true ↔
          sext8 (s.read (src.toNat + 8 * g + b)) < 0)) ∧
      (∀ a, ¬(dv.toNat ≤ a ∧ a < dv.toNat + len.toNat / 8) →
        ¬(ds.toNat ≤ a ∧ a < ds.toNat + len.toNat / 8) → t.read a = s.read a)

/-- 41_codec R123: compression is exact, and a retired CMPR leaves its source unchanged. -/
def Obligations.CompressionIsExact : Prop :=
  ∀ (src dv ds len : Word) (s t : State), Memory.wf s.dmem = true →
    exec (.cmpr src dv ds len) s = .next t → t.retired = s.retired + 1 →
    (∀ g b, g < len.toNat / 8 → b < 8 →
      tdec ((t.read (dv.toNat + g)).getLsbD b) ((t.read (ds.toNat + g)).getLsbD b) =
        sext8 (s.read (src.toNat + 8 * g + b))) ∧
    (∀ x, x < len.toNat → t.read (src.toNat + x) = s.read (src.toNat + x))

/-! ### Packer -/

/-- 42_packer R146: lane l of step kk of panel p is A[row0 + p·MR + l, k0 + kk]; every byte outside
the mc·kc destination bytes as before. -/
def Obligations.PackAStagesRowPanels : Prop :=
  ∀ (src dst : Word) (row0 k0 mc kc : Half) (s : State), Memory.wf s.dmem = true →
    s.csrN ≠ 0 → s.csrMR ≠ 0 → s.csrNR ≠ 0 →
    s.csrN.toNat % s.csrMR.toNat = 0 → s.csrN.toNat % s.csrNR.toNat = 0 →
    mc.toNat % s.csrMR.toNat = 0 →
    row0.toNat + mc.toNat ≤ s.csrN.toNat → k0.toNat + kc.toNat ≤ s.csrN.toNat →
    inDmem s.dmemSize src.toNat (s.csrN.toNat * s.csrN.toNat) = true →
    inDmem s.dmemSize dst.toNat (mc.toNat * kc.toNat) = true →
    overlaps dst.toNat (mc.toNat * kc.toNat) src.toNat (s.csrN.toNat * s.csrN.toNat) = false →
    ∃ t, exec (.packA src dst row0 k0 mc kc) s = .next t ∧ RetiredWritingMemory s t ∧
      (∀ p kk l, p < mc.toNat / s.csrMR.toNat → kk < kc.toNat → l < s.csrMR.toNat →
        t.read (dst.toNat +
            (p * s.csrMR.toNat * kc.toNat + kk * s.csrMR.toNat + l)) =
          s.read (src.toNat +
            ((row0.toNat + p * s.csrMR.toNat + l) + s.csrN.toNat * (k0.toNat + kk)))) ∧
      (∀ a, ¬(dst.toNat ≤ a ∧ a < dst.toNat + mc.toNat * kc.toNat) → t.read a = s.read a)

/-- 42_packer R148: lane l of step kk of panel q is B[k0 + kk, col0 + q·NR + l]. -/
def Obligations.PackBStagesColumnPanels : Prop :=
  ∀ (src dst : Word) (col0 k0 nc kc : Half) (s : State), Memory.wf s.dmem = true →
    s.csrN ≠ 0 → s.csrMR ≠ 0 → s.csrNR ≠ 0 →
    s.csrN.toNat % s.csrMR.toNat = 0 → s.csrN.toNat % s.csrNR.toNat = 0 →
    nc.toNat % s.csrNR.toNat = 0 →
    col0.toNat + nc.toNat ≤ s.csrN.toNat → k0.toNat + kc.toNat ≤ s.csrN.toNat →
    inDmem s.dmemSize src.toNat (s.csrN.toNat * s.csrN.toNat) = true →
    inDmem s.dmemSize dst.toNat (nc.toNat * kc.toNat) = true →
    overlaps dst.toNat (nc.toNat * kc.toNat) src.toNat (s.csrN.toNat * s.csrN.toNat) = false →
    ∃ t, exec (.packB src dst col0 k0 nc kc) s = .next t ∧ RetiredWritingMemory s t ∧
      (∀ q kk l, q < nc.toNat / s.csrNR.toNat → kk < kc.toNat → l < s.csrNR.toNat →
        t.read (dst.toNat +
            (q * s.csrNR.toNat * kc.toNat + kk * s.csrNR.toNat + l)) =
          s.read (src.toNat +
            ((k0.toNat + kk) + s.csrN.toNat * (col0.toNat + q * s.csrNR.toNat + l)))) ∧
      (∀ a, ¬(dst.toNat ≤ a ∧ a < dst.toNat + nc.toNat * kc.toNat) → t.read a = s.read a)

/-- 42_packer R147: both masks of the compressed A, at byte (row, k0/8 + kk) of an N × N/8 matrix
of stride N. -/
def Obligations.PackAPackedStagesBothMasks : Prop :=
  ∀ (sv ss dv ds : Word) (row0 k0 mc kc : Half) (s : State), Memory.wf s.dmem = true →
    s.csrN ≠ 0 → s.csrMR ≠ 0 → s.csrNR ≠ 0 →
    s.csrN.toNat % s.csrMR.toNat = 0 → s.csrN.toNat % s.csrNR.toNat = 0 →
    mc.toNat % s.csrMR.toNat = 0 → k0.toNat % 8 = 0 → kc.toNat % 8 = 0 →
    row0.toNat + mc.toNat ≤ s.csrN.toNat → k0.toNat + kc.toNat ≤ s.csrN.toNat →
    inDmem s.dmemSize sv.toNat (s.csrN.toNat * s.csrN.toNat / 8) = true →
    inDmem s.dmemSize ss.toNat (s.csrN.toNat * s.csrN.toNat / 8) = true →
    inDmem s.dmemSize dv.toNat (mc.toNat * (kc.toNat / 8)) = true →
    inDmem s.dmemSize ds.toNat (mc.toNat * (kc.toNat / 8)) = true →
    (∀ d ∈ [dv, ds], ∀ x ∈ [sv, ss], overlaps d.toNat (mc.toNat * (kc.toNat / 8))
      x.toNat (s.csrN.toNat * s.csrN.toNat / 8) = false) →
    overlaps dv.toNat (mc.toNat * (kc.toNat / 8)) ds.toNat (mc.toNat * (kc.toNat / 8)) = false →
    ∃ t, exec (.packAP sv ss dv ds row0 k0 mc kc) s = .next t ∧ RetiredWritingMemory s t ∧
      (∀ p kk l, p < mc.toNat / s.csrMR.toNat → kk < kc.toNat / 8 → l < s.csrMR.toNat →
        t.read (dv.toNat +
            (p * s.csrMR.toNat * (kc.toNat / 8) + kk * s.csrMR.toNat + l)) =
          s.read (sv.toNat +
            ((row0.toNat + p * s.csrMR.toNat + l) + s.csrN.toNat * (k0.toNat / 8 + kk))) ∧
        t.read (ds.toNat +
            (p * s.csrMR.toNat * (kc.toNat / 8) + kk * s.csrMR.toNat + l)) =
          s.read (ss.toNat +
            ((row0.toNat + p * s.csrMR.toNat + l) + s.csrN.toNat * (k0.toNat / 8 + kk)))) ∧
      (∀ a, ¬(dv.toNat ≤ a ∧ a < dv.toNat + mc.toNat * (kc.toNat / 8)) →
        ¬(ds.toNat ≤ a ∧ a < ds.toNat + mc.toNat * (kc.toNat / 8)) → t.read a = s.read a)

/-- 42_packer R149: both masks of the compressed B, at byte (k0/8 + kk, column) of an N/8 × N
matrix of stride N/8. -/
def Obligations.PackBPackedStagesBothMasks : Prop :=
  ∀ (sv ss dv ds : Word) (col0 k0 nc kc : Half) (s : State), Memory.wf s.dmem = true →
    s.csrN ≠ 0 → s.csrMR ≠ 0 → s.csrNR ≠ 0 →
    s.csrN.toNat % s.csrMR.toNat = 0 → s.csrN.toNat % s.csrNR.toNat = 0 →
    nc.toNat % s.csrNR.toNat = 0 → k0.toNat % 8 = 0 → kc.toNat % 8 = 0 →
    col0.toNat + nc.toNat ≤ s.csrN.toNat → k0.toNat + kc.toNat ≤ s.csrN.toNat →
    inDmem s.dmemSize sv.toNat (s.csrN.toNat * s.csrN.toNat / 8) = true →
    inDmem s.dmemSize ss.toNat (s.csrN.toNat * s.csrN.toNat / 8) = true →
    inDmem s.dmemSize dv.toNat (nc.toNat * (kc.toNat / 8)) = true →
    inDmem s.dmemSize ds.toNat (nc.toNat * (kc.toNat / 8)) = true →
    (∀ d ∈ [dv, ds], ∀ x ∈ [sv, ss], overlaps d.toNat (nc.toNat * (kc.toNat / 8))
      x.toNat (s.csrN.toNat * s.csrN.toNat / 8) = false) →
    overlaps dv.toNat (nc.toNat * (kc.toNat / 8)) ds.toNat (nc.toNat * (kc.toNat / 8)) = false →
    ∃ t, exec (.packBP sv ss dv ds col0 k0 nc kc) s = .next t ∧ RetiredWritingMemory s t ∧
      (∀ q kk l, q < nc.toNat / s.csrNR.toNat → kk < kc.toNat / 8 → l < s.csrNR.toNat →
        t.read (dv.toNat +
            (q * s.csrNR.toNat * (kc.toNat / 8) + kk * s.csrNR.toNat + l)) =
          s.read (sv.toNat + ((k0.toNat / 8 + kk)
            + s.csrN.toNat / 8 * (col0.toNat + q * s.csrNR.toNat + l))) ∧
        t.read (ds.toNat +
            (q * s.csrNR.toNat * (kc.toNat / 8) + kk * s.csrNR.toNat + l)) =
          s.read (ss.toNat + ((k0.toNat / 8 + kk)
            + s.csrN.toNat / 8 * (col0.toNat + q * s.csrNR.toNat + l)))) ∧
      (∀ a, ¬(dv.toNat ≤ a ∧ a < dv.toNat + nc.toNat * (kc.toNat / 8)) →
        ¬(ds.toNat ≤ a ∧ a < ds.toNat + nc.toNat * (kc.toNat / 8)) → t.read a = s.read a)

/-- 42_packer R151: the panel offsets of a tile are one-to-one onto its destination bytes. -/
def Obligations.PanelOffsetsAreABijection : Prop :=
  ∀ width steps panels : Nat, 0 < width →
    (∀ p kk l, p < panels → kk < steps → l < width →
      panelOffset width steps p kk l < panels * width * steps) ∧
    (∀ x, x < panels * width * steps → ∃ p kk l, p < panels ∧ kk < steps ∧ l < width ∧
      panelOffset width steps p kk l = x ∧
      ∀ p' kk' l', p' < panels → kk' < steps → l' < width →
        panelOffset width steps p' kk' l' = x → p' = p ∧ kk' = kk ∧ l' = l)

/-! ### Accumulator -/

/-- 43_accumulator R171: all 256 cells 0, whatever the configuration registers hold. -/
def Obligations.TclrClearsEveryCell : Prop :=
  ∀ s : State, ∃ t, exec .tclr s = .next t ∧ RetiredWritingAcc s t ∧
    ∀ l j, l < 16 → j < 16 → t.accCell l j = 0#8

/-- 43_accumulator R172: the active cells from C, the others unchanged. -/
def Obligations.TldLoadsTheActiveTile : Prop :=
  ∀ (cbase : Word) (row0 col0 : Half) (s : State),
    s.csrN ≠ 0 → s.csrMR ≠ 0 → s.csrNR ≠ 0 →
    s.csrN.toNat % s.csrMR.toNat = 0 → s.csrN.toNat % s.csrNR.toNat = 0 →
    row0.toNat + s.csrMR.toNat ≤ s.csrN.toNat → col0.toNat + s.csrNR.toNat ≤ s.csrN.toNat →
    inDmem s.dmemSize cbase.toNat (s.csrN.toNat * s.csrN.toNat) = true →
    ∃ t, exec (.tld cbase row0 col0) s = .next t ∧ RetiredWritingAcc s t ∧
      ∀ l j, l < 16 → j < 16 → t.accCell l j =
        if l < s.csrMR.toNat ∧ j < s.csrNR.toNat then
          s.read (cbase.toNat + ((row0.toNat + l) + s.csrN.toNat * (col0.toNat + j)))
        else s.accCell l j

/-- 43_accumulator R173: the active cells into C, every other byte of DMEM as before. -/
def Obligations.TstStoresTheActiveTile : Prop :=
  ∀ (cbase : Word) (row0 col0 : Half) (s : State), Memory.wf s.dmem = true →
    s.csrN ≠ 0 → s.csrMR ≠ 0 → s.csrNR ≠ 0 →
    s.csrN.toNat % s.csrMR.toNat = 0 → s.csrN.toNat % s.csrNR.toNat = 0 →
    row0.toNat + s.csrMR.toNat ≤ s.csrN.toNat → col0.toNat + s.csrNR.toNat ≤ s.csrN.toNat →
    inDmem s.dmemSize cbase.toNat (s.csrN.toNat * s.csrN.toNat) = true →
    ∃ t, exec (.tst cbase row0 col0) s = .next t ∧ RetiredWritingMemory s t ∧
      (∀ l j, l < s.csrMR.toNat → j < s.csrNR.toNat →
        t.read (cbase.toNat + ((row0.toNat + l) + s.csrN.toNat * (col0.toNat + j)))
          = s.accCell l j) ∧
      (∀ a, (∀ l j, l < s.csrMR.toNat → j < s.csrNR.toNat →
          a ≠ cbase.toNat + ((row0.toNat + l) + s.csrN.toNat * (col0.toNat + j))) →
        t.read a = s.read a)

/-- 43_accumulator R173 'TST then TLD of the same tile restores the same ACC values': whatever is
in ACC in between, the active cells come back. -/
def Obligations.TstThenTldRestoresTheTile : Prop :=
  ∀ (cbase : Word) (row0 col0 : Half) (s t u v : State), s.inv = true →
    exec (.tst cbase row0 col0) s = .next t → t.retired = s.retired + 1 →
    u = { t with acc := u.acc } →
    exec (.tld cbase row0 col0) u = .next v →
    v.retired = u.retired + 1 ∧
      ∀ l j, l < s.csrMR.toNat → j < s.csrNR.toNat → v.accCell l j = s.accCell l j

/-! ### Micro-kernel -/

/-- 44_microkernel R191: wrap8 of the old cell plus the sum over the steps of the signed products;
inactive cells and DMEM unchanged. -/
def Obligations.MkrAddsTheDotProducts : Prop :=
  ∀ (a b kc : Word) (s : State), s.csrMR ≠ 0 → s.csrNR ≠ 0 →
    inDmem s.dmemSize a.toNat (kc.toNat * s.csrMR.toNat) = true →
    inDmem s.dmemSize b.toNat (kc.toNat * s.csrNR.toNat) = true →
    ∃ t, exec (.mkr a b kc) s = .next t ∧ RetiredWritingAcc s t ∧
      ∀ l j, l < 16 → j < 16 → t.accCell l j =
        if l < s.csrMR.toNat ∧ j < s.csrNR.toNat then
          wrap8 (sext8 (s.accCell l j) + ((List.range kc.toNat).map fun kk =>
            sext8 (s.read (a.toNat + kk * s.csrMR.toNat + l)) *
              sext8 (s.read (b.toNat + kk * s.csrNR.toNat + j))).sum)
        else s.accCell l j

/-- 44_microkernel R194, R196: wrap8 of the old cell plus the sum over the steps and the eight bits
of the products of the decoded ternary elements. -/
def Obligations.MkpAddsTheTernaryDotProducts : Prop :=
  ∀ (aVal aSgn bVal bSgn kc : Word) (s : State), s.csrMR ≠ 0 → s.csrNR ≠ 0 →
    kc.toNat % 8 = 0 →
    inDmem s.dmemSize aVal.toNat (kc.toNat / 8 * s.csrMR.toNat) = true →
    inDmem s.dmemSize aSgn.toNat (kc.toNat / 8 * s.csrMR.toNat) = true →
    inDmem s.dmemSize bVal.toNat (kc.toNat / 8 * s.csrNR.toNat) = true →
    inDmem s.dmemSize bSgn.toNat (kc.toNat / 8 * s.csrNR.toNat) = true →
    ∃ t, exec (.mkp aVal aSgn bVal bSgn kc) s = .next t ∧ RetiredWritingAcc s t ∧
      ∀ l j, l < 16 → j < 16 → t.accCell l j =
        if l < s.csrMR.toNat ∧ j < s.csrNR.toNat then
          wrap8 (sext8 (s.accCell l j) + ((List.range (kc.toNat / 8)).map fun kk =>
            ((List.range 8).map fun b =>
              tdec ((s.read (aVal.toNat + kk * s.csrMR.toNat + l)).getLsbD b)
                  ((s.read (aSgn.toNat + kk * s.csrMR.toNat + l)).getLsbD b) *
                tdec ((s.read (bVal.toNat + kk * s.csrNR.toNat + j)).getLsbD b)
                  ((s.read (bSgn.toNat + kk * s.csrNR.toNat + j)).getLsbD b)).sum).sum)
        else s.accCell l j

/-- 44_microkernel R193: the product of one scalar pair from its bits. -/
def Obligations.ScalarProductFromBits : Prop :=
  ∀ av aSgn bv bSgn : Bool, tdec av aSgn * tdec bv bSgn =
    if (av && bv) = false then 0 else if (aSgn ^^ bSgn) = false then 1 else -1

/-- 44_microkernel R194: the popcount identity, for every four mask bytes. -/
def Obligations.PopcountIdentity : Prop :=
  ∀ av aSgn bv bSgn : Byte,
    ((List.range 8).map fun b =>
      tdec (av.getLsbD b) (aSgn.getLsbD b) * tdec (bv.getLsbD b) (bSgn.getLsbD b)).sum =
    (popcnt8 (av &&& bv) : Int) - 2 * (popcnt8 ((av &&& bv) &&& (aSgn ^^^ bSgn)) : Int)

/-- 44_microkernel R197: where the packed panels are the compression of the raw ones along the
reduction dimension, MKP and MKR leave the same ACC. -/
def Obligations.PackedAndRawKernelsAgree : Prop :=
  ∀ (a b aVal aSgn bVal bSgn kc : Word) (s : State), s.csrMR ≠ 0 → s.csrNR ≠ 0 →
    kc.toNat % 8 = 0 →
    inDmem s.dmemSize a.toNat (kc.toNat * s.csrMR.toNat) = true →
    inDmem s.dmemSize b.toNat (kc.toNat * s.csrNR.toNat) = true →
    inDmem s.dmemSize aVal.toNat (kc.toNat / 8 * s.csrMR.toNat) = true →
    inDmem s.dmemSize aSgn.toNat (kc.toNat / 8 * s.csrMR.toNat) = true →
    inDmem s.dmemSize bVal.toNat (kc.toNat / 8 * s.csrNR.toNat) = true →
    inDmem s.dmemSize bSgn.toNat (kc.toNat / 8 * s.csrNR.toNat) = true →
    (∀ kk bit l, kk < kc.toNat / 8 → bit < 8 → l < s.csrMR.toNat →
      sext8 (s.read (a.toNat + (8 * kk + bit) * s.csrMR.toNat + l)) =
        tdec ((s.read (aVal.toNat + kk * s.csrMR.toNat + l)).getLsbD bit)
          ((s.read (aSgn.toNat + kk * s.csrMR.toNat + l)).getLsbD bit)) →
    (∀ kk bit j, kk < kc.toNat / 8 → bit < 8 → j < s.csrNR.toNat →
      sext8 (s.read (b.toNat + (8 * kk + bit) * s.csrNR.toNat + j)) =
        tdec ((s.read (bVal.toNat + kk * s.csrNR.toNat + j)).getLsbD bit)
          ((s.read (bSgn.toNat + kk * s.csrNR.toNat + j)).getLsbD bit)) →
    exec (.mkp aVal aSgn bVal bSgn kc) s = exec (.mkr a b kc) s

/-- 43_accumulator R174: two reduction tiles of one output tile, each an MKR or an MKP, run in
either order, leave the same ACC, and all other state alike. -/
def Obligations.ReductionTilesCommute : Prop :=
  ∀ (i j : Instr) (s t u t' u' : State),
    i.mnemonic ∈ ([.mkr, .mkp] : List Mnemonic) → j.mnemonic ∈ ([.mkr, .mkp] : List Mnemonic) →
    exec i s = .next t → t.retired = s.retired + 1 →
    exec j t = .next u → u.retired = t.retired + 1 →
    exec j s = .next t' → exec i t' = .next u' → u = u'

/-- 43_accumulator R174, 44_microkernel R191, R196: a reduction run as two consecutive tiles, both
MKR or both MKP, leaves the ACC of the whole reduction. -/
def Obligations.SplitReductionAccumulates : Prop :=
  (∀ (a b kc a' b' kc' whole : Word) (s t u v : State),
    a'.toNat = a.toNat + kc.toNat * s.csrMR.toNat →
    b'.toNat = b.toNat + kc.toNat * s.csrNR.toNat →
    whole.toNat = kc.toNat + kc'.toNat →
    exec (.mkr a b kc) s = .next t → t.retired = s.retired + 1 →
    exec (.mkr a' b' kc') t = .next u → u.retired = t.retired + 1 →
    exec (.mkr a b whole) s = .next v → v.retired = s.retired + 1 → u.acc = v.acc) ∧
  (∀ (aVal aSgn bVal bSgn kc aVal' aSgn' bVal' bSgn' kc' whole : Word) (s t u v : State),
    aVal'.toNat = aVal.toNat + kc.toNat / 8 * s.csrMR.toNat →
    aSgn'.toNat = aSgn.toNat + kc.toNat / 8 * s.csrMR.toNat →
    bVal'.toNat = bVal.toNat + kc.toNat / 8 * s.csrNR.toNat →
    bSgn'.toNat = bSgn.toNat + kc.toNat / 8 * s.csrNR.toNat →
    whole.toNat = kc.toNat + kc'.toNat →
    exec (.mkp aVal aSgn bVal bSgn kc) s = .next t → t.retired = s.retired + 1 →
    exec (.mkp aVal' aSgn' bVal' bSgn' kc') t = .next u → u.retired = t.retired + 1 →
    exec (.mkp aVal aSgn bVal bSgn whole) s = .next v → v.retired = s.retired + 1 →
    u.acc = v.acc)

/-! ### Single-row dot -/

/-- 45_rowdot R211, R215: the raw lane products at dst, their wraparound sum in DOTRES. -/
def Obligations.DotrNWritesProductsAndSum : Prop :=
  ∀ (w : Lanes) (a b dst : Word) (s : State), Memory.wf s.dmem = true →
    inDmem s.dmemSize a.toNat (laneCount w) = true →
    inDmem s.dmemSize b.toNat (laneCount w) = true →
    inDmem s.dmemSize dst.toNat (laneCount w) = true →
    overlaps dst.toNat (laneCount w) a.toNat (laneCount w) = false →
    overlaps dst.toNat (laneCount w) b.toNat (laneCount w) = false →
    ∃ t, exec (.dotrN w a b dst) s = .next t ∧ RetiredWritingDot s t ∧
      (∀ i, i < laneCount w → t.read (dst.toNat + i) =
        wrap8 (sext8 (s.read (a.toNat + i)) * sext8 (s.read (b.toNat + i)))) ∧
      t.dotres = wrap8 ((List.range (laneCount w)).map fun i =>
        sext8 (s.read (a.toNat + i)) * sext8 (s.read (b.toNat + i))).sum ∧
      (∀ x, ¬(dst.toNat ≤ x ∧ x < dst.toNat + laneCount w) → t.read x = s.read x)

/-- 45_rowdot R212, R213, R214, R215: DOTR.S and DOTR.T write, in lane i, the element of A times the
ternary value that bits W-1-i of the masks decode to, and the wraparound sum in DOTRES. -/
def Obligations.MaskDotsWriteProductsAndSum : Prop :=
  ∀ (w : Lanes) (a : Word) (vmask smask : Half) (dst : Word) (s : State), ∀ i ∈
    [Instr.dotrS w a vmask smask dst, Instr.dotrT w a vmask smask dst],
    Memory.wf s.dmem = true →
    inDmem s.dmemSize a.toNat (laneCount w) = true →
    inDmem s.dmemSize dst.toNat (laneCount w) = true →
    overlaps dst.toNat (laneCount w) a.toNat (laneCount w) = false →
    ∃ t, exec i s = .next t ∧ RetiredWritingDot s t ∧
      (∀ k, k < laneCount w → t.read (dst.toNat + k) =
        wrap8 (sext8 (s.read (a.toNat + k)) *
          tdec (vmask.getLsbD (laneCount w - 1 - k)) (smask.getLsbD (laneCount w - 1 - k)))) ∧
      t.dotres = wrap8 ((List.range (laneCount w)).map fun k =>
        sext8 (s.read (a.toNat + k)) *
          tdec (vmask.getLsbD (laneCount w - 1 - k))
            (smask.getLsbD (laneCount w - 1 - k))).sum ∧
      (∀ x, ¬(dst.toNat ≤ x ∧ x < dst.toNat + laneCount w) → t.read x = s.read x)

/-- 45_rowdot R214: DOTR.S writes the wrapped product of the element of A and the decoded mask pair
in each lane, DOTR.T does the same on every state, and DOTR.N on a raw B that holds the decoded
masks does it too. -/
def Obligations.ThreeDotDerivationsAgree : Prop :=
  (∀ (w : Lanes) (a : Word) (vmask smask : Half) (dst : Word) (s t : State),
    Memory.wf s.dmem = true → exec (.dotrS w a vmask smask dst) s = .next t →
    t.retired = s.retired + 1 → ∀ i, i < laneCount w → t.read (dst.toNat + i) =
      wrap8 (sext8 (s.read (a.toNat + i)) *
        tdec (vmask.getLsbD (laneCount w - 1 - i)) (smask.getLsbD (laneCount w - 1 - i)))) ∧
  (∀ (w : Lanes) (a : Word) (vmask smask : Half) (dst : Word) (s : State),
    exec (.dotrS w a vmask smask dst) s = exec (.dotrT w a vmask smask dst) s) ∧
  (∀ (w : Lanes) (a b : Word) (vmask smask : Half) (dst : Word) (s : State),
    inDmem s.dmemSize b.toNat (laneCount w) = true →
    overlaps dst.toNat (laneCount w) b.toNat (laneCount w) = false →
    (∀ i, i < laneCount w → sext8 (s.read (b.toNat + i)) =
      tdec (vmask.getLsbD (laneCount w - 1 - i)) (smask.getLsbD (laneCount w - 1 - i))) →
    exec (.dotrN w a b dst) s = exec (.dotrS w a vmask smask dst) s)

/-! ### Faults -/

/-- 60_exceptions R231: the cause codes. -/
def Obligations.CauseCodesAreTheTable : Prop :=
  Cause.code .illegalOpcode = 0x01#8 ∧ Cause.code .reservedEnc = 0x02#8 ∧
  Cause.code .cfgUnset = 0x03#8 ∧ Cause.code .badCfg = 0x04#8 ∧
  Cause.code .notDivisible = 0x05#8 ∧ Cause.code .dimBounds = 0x06#8 ∧
  Cause.code .addrRange = 0x07#8 ∧ Cause.code .overlap = 0x08#8 ∧
  Cause.code .notTernary = 0x09#8

/-- 60_exceptions R233: of the causes that apply to the command in CMD, the one with the lowest code
is reported, its code in CAUSE; and a cause that is reported applies and is the lowest. -/
def Obligations.LowestCauseIsReported : Prop :=
  (∀ (s : State) (c : Cause), descriptorCauseApplies s c = true →
    (∀ c', descriptorCauseApplies s c' = true → c.code.toNat ≤ c'.code.toNat) →
    s.runCommand = .next (s.raise c) ∧ (s.raise c).cause = c.code) ∧
  (∀ (s t : State) (c : Cause), s.fault = false → s.runCommand = .next t → t.fault = true →
    t.cause = c.code → descriptorCauseApplies s c = true ∧
      ∀ c', descriptorCauseApplies s c' = true → c.code.toNat ≤ c'.code.toNat)

/-- 60_exceptions R235, 20_memory R55: a command to which no cause applies retires, and changes no
bit of STATUS but BUSY; so does a descriptor to which none applies. -/
def Obligations.CommandRetiresWhenNoCauseApplies : Prop :=
  (∀ (i : Instr) (s : State), (∀ c, causeApplies s i c = false) →
    ∃ t, exec i s = .next t ∧ t.retired = s.retired + 1 ∧ t.busy = false ∧
      t.fault = s.fault ∧ t.herr = s.herr ∧ t.cause = s.cause ∧ t.fopc = s.fopc) ∧
  (∀ s : State, (∀ c, descriptorCauseApplies s c = false) →
    ∃ t, s.runCommand = .next t ∧ t.retired = s.retired + 1 ∧ t.busy = false ∧
      t.fault = s.fault ∧ t.herr = s.herr ∧ t.cause = s.cause ∧ t.fopc = s.fopc)

/-- 60_exceptions R236: fault entry with the cause that applies (the lowest code, R233): CAUSE is its
code, FOPC the opcode byte of CMD[0], FAULT 1, BUSY 0, and nothing else changes. -/
def Obligations.FaultWritesStatusAlone : Prop :=
  ∀ (s : State) (c : Cause), descriptorCauseApplies s c = true →
    (∀ c', descriptorCauseApplies s c' = true → c.code.toNat ≤ c'.code.toNat) →
    s.runCommand = .next { s with
      cause := c.code, fopc := s.cmd[0].extractLsb' 0 8, fault := true, busy := false }

/-- 60_exceptions R237: a GO after a fault is dropped and sets HERR, nothing else. -/
def Obligations.GoAfterFaultIsDropped : Prop :=
  ∀ (s : State) (v : Word), s.fault = true → v.getLsbD 0 = true → v.getLsbD 1 = false →
    s.hostAccess (.regWrite .word 0x004 v) = { s with herr := true }

/-- 60_exceptions R238: FAULT, CAUSE and FOPC stay, and no command runs, until a reset; the host's
accesses still act on CMD, DMEM and HERR. -/
def Obligations.FaultStaysUntilReset : Prop :=
  ∀ s t : State, s.inv = true → s.fault = true →
    (∀ e, s.host.head? = some e → e.resets = false) → step s = .next t →
    t.fault = true ∧ t.busy = false ∧ t.cause = s.cause ∧ t.fopc = s.fopc ∧
      t.retired = s.retired ∧ t.dotres = s.dotres ∧ t.acc = s.acc ∧ t.csrN = s.csrN ∧
      t.csrMR = s.csrMR ∧ t.csrNR = s.csrNR

/-- 60_exceptions R241: HERR is sticky: only a reset clears it. -/
def Obligations.HerrStaysUntilReset : Prop :=
  ∀ s t : State, s.herr = true → s.srstPending = false →
    (∀ e, s.host.head? = some e → e.resets = false) → step s = .next t → t.herr = true

/-! ### What no command changes -/

/-- 10_state R24, R27, R28, R31, 60_exceptions R241: CSRs are written by CFG alone, DOTRES by DOTR
alone, ACC by TCLR, TLD, MKR and MKP alone, and CMD and HERR by no command. 20_memory R50,
44_microkernel R190: DMEM by none of NOP, CFG, TCLR, TLD, MKR and MKP. -/
def Obligations.CommandsWriteOnlyTheirState : Prop :=
  ∀ (i : Instr) (s t : State), exec i s = .next t →
    t.cmd = s.cmd ∧ t.herr = s.herr ∧ t.dmemSize = s.dmemSize ∧
    (i.mnemonic ≠ .cfg → t.csrN = s.csrN ∧ t.csrMR = s.csrMR ∧ t.csrNR = s.csrNR) ∧
    (i.mnemonic ∉ ([.dotrN, .dotrS, .dotrT] : List Mnemonic) → t.dotres = s.dotres) ∧
    (i.mnemonic ∉ ([.tclr, .tld, .mkr, .mkp] : List Mnemonic) → t.acc = s.acc) ∧
    (i.mnemonic ∈ ([.nop, .cfg, .tclr, .tld, .mkr, .mkp] : List Mnemonic) → t.dmem = s.dmem)

/-! ### Invariant -/

/-- Every step keeps the invariant: legal tile widths (10_state R24), a consistent STATUS (10_state
R26), DMEM canonical and inside DMEM_SIZE (20_memory R50, log 2), a soft reset pending only while a
command runs (70_reset_and_hazards R262). -/
def Obligations.StepKeepsInvariant : Prop :=
  ∀ s t : State, s.inv = true → step s = .next t → t.inv = true

/-- The invariant holds after power-on with any size and contents the spec allows, so also at
State.reset, whose size is the model's choice (log 1). -/
def Obligations.PowerOnSatisfiesInvariant : Prop :=
  State.reset.inv = true ∧
  ∀ (size : Nat) (m : Memory) (turns : List HostEvent), 1 ≤ size → size ≤ 2 ^ 32 →
    Memory.wf m = true → Memory.within size m = true → (State.powerOn size m turns).inv = true

/-! ### The host's ports -/

/-- 10_state R23 to R32: what each offset of the register port reads while the block is idle. -/
def Obligations.RegisterPortReads : Prop :=
  ∀ s : State, s.busy = false →
    (∀ off v, (off, v) ∈
        ([(0x000, 0x54425043#32), (0x004, 0#32),
          (0x008, (0#8 ++ s.fopc ++ s.cause ++ 0#5 ++ BitVec.ofBool s.herr
            ++ BitVec.ofBool s.fault ++ 0#1 : Word)),
          (0x00C, s.retired), (0x010, s.dotres.setWidth 32), (0x014, s.csrN.setWidth 32),
          (0x018, s.csrMR.setWidth 32), (0x01C, s.csrNR.setWidth 32)] : List (Nat × Word)) →
      s.hostAccess (.regRead .word off) = { s with hostData := v }) ∧
    (∀ i : Fin 8, s.hostAccess (.regRead .word (0x040 + 4 * i.val))
      = { s with hostData := s.cmd[i] })

/-- 10_state R32: a reserved offset reads 0 and ignores writes, and neither is a host-protocol
error; an access that is not a 32-bit word access at a word-aligned offset is one. -/
def Obligations.ReservedOffsetsReadZero : Prop :=
  ∀ (s : State) (v : Word),
    (∀ off, off % 4 = 0 → (0x020 ≤ off ∧ off < 0x040 ∨ 0x060 ≤ off) →
      (s.hostAccess (.regRead .word off)).hostData = 0#32 ∧
      (s.hostAccess (.regRead .word off)).herr = s.herr ∧
      s.hostAccess (.regWrite .word off v) = s) ∧
    (∀ (width : AccessWidth) (off : Nat), width ≠ .word ∨ off % 4 ≠ 0 →
      (s.hostAccess (.regRead width off)).herr = true ∧
      (s.hostAccess (.regWrite width off v)).herr = true)

/-- 10_state R23, R28: a write of CMD[i] while idle stores the word there; a write of a read-only
register changes nothing. -/
def Obligations.RegisterPortWrites : Prop :=
  ∀ (s : State) (v : Word),
    (s.busy = false → ∀ i : Fin 8, s.hostAccess (.regWrite .word (0x040 + 4 * i.val) v)
      = { s with cmd := s.cmd.set i v }) ∧
    (∀ off ∈ [0x000, 0x008, 0x00C, 0x010, 0x014, 0x018, 0x01C],
      s.hostAccess (.regWrite .word off v) = s)

/-- 10_state R29: CTRL with GO = 1 starts the command when the block is idle and not faulted; a
write with GO = 0 and SRST = 0 has no effect, idle, busy or faulted. -/
def Obligations.GoStartsTheCommand : Prop :=
  ∀ (s : State) (v : Word),
    (s.busy = false → s.fault = false → v.getLsbD 0 = true → v.getLsbD 1 = false →
      s.hostAccess (.regWrite .word 0x004 v) = { s with busy := true }) ∧
    (v.getLsbD 0 = false → v.getLsbD 1 = false →
      s.hostAccess (.regWrite .word 0x004 v) = s)

/-- 20_memory R61: little-endian host accesses of 1, 2 and 4 bytes, single bytes at any address. -/
def Obligations.HostDmemAccessIsLittleEndian : Prop :=
  ∀ (s : State) (width : AccessWidth) (a : Nat) (v : Word), Memory.wf s.dmem = true →
    s.busy = false → a % width.bytes = 0 → a + width.bytes ≤ s.dmemSize →
    (∀ k, k < width.bytes →
      (s.hostAccess (.dmemRead width a)).hostData.extractLsb' (8 * k) 8 = s.read (a + k) ∧
      (s.hostAccess (.dmemWrite width a v)).read (a + k) = v.extractLsb' (8 * k) 8) ∧
    (∀ x, ¬(a ≤ x ∧ x < a + width.bytes) →
      (s.hostAccess (.dmemWrite width a v)).read x = s.read x) ∧
    s.hostAccess (.dmemRead width a)
      = { s with hostData := (s.hostAccess (.dmemRead width a)).hostData } ∧
    s.hostAccess (.dmemWrite width a v)
      = { s with dmem := (s.hostAccess (.dmemWrite width a v)).dmem }

/-- 20_memory R62: a misaligned or out-of-range DMEM access, and a register access that is not a
word-aligned 32-bit one, sets HERR, drops a write, answers a read with any value, and does nothing
else; never FAULT. That 'any value' is Config.freeHostRead at a counter, cut to the width with
zeros above, is the model's choice (log 5, log 6). -/
def Obligations.BadHostAccessSetsHerr : Prop :=
  ∀ (s : State) (width : AccessWidth) (v : Word),
    (∀ a, a % width.bytes ≠ 0 ∨ s.dmemSize < a + width.bytes →
      s.hostAccess (.dmemWrite width a v) = { s with herr := true } ∧
      s.hostAccess (.dmemRead width a) = { s with
        herr := true, hostData := width.fit (Config.freeHostRead s.freeTick),
        freeTick := s.freeTick + 1 }) ∧
    (∀ off, width ≠ .word ∨ off % 4 ≠ 0 →
      s.hostAccess (.regWrite width off v) = { s with herr := true } ∧
      s.hostAccess (.regRead width off) = { s with
        herr := true, hostData := width.fit (Config.freeHostRead s.freeTick),
        freeTick := s.freeTick + 1 })

/-- 20_memory R63, 60_exceptions R242: while BUSY = 1 a DMEM write, a CMD write and a GO are dropped
and set HERR; a DMEM read returns any value and sets HERR. That 'any value' is Config.freeHostRead
at a counter, cut to the width with zeros above, is the model's choice (log 5, log 6). -/
def Obligations.HostWritesWhileBusyAreDropped : Prop :=
  ∀ (s : State) (width : AccessWidth) (a : Nat) (v : Word), s.busy = true →
    s.hostAccess (.dmemWrite width a v) = { s with herr := true } ∧
    (∀ i : Fin 8, s.hostAccess (.regWrite .word (0x040 + 4 * i.val) v)
      = { s with herr := true }) ∧
    (v.getLsbD 0 = true → v.getLsbD 1 = false →
      s.hostAccess (.regWrite .word 0x004 v) = { s with herr := true }) ∧
    s.hostAccess (.dmemRead width a) = { s with
      herr := true, hostData := width.fit (Config.freeHostRead s.freeTick),
      freeTick := s.freeTick + 1 }

/-- 20_memory R63, 10_state R34: a register read while BUSY = 1 shows RETIRED, DOTRES and each CSR
as before the command or as after it (the CSRs: the model's reading, log 23), and ID, CTRL and CMD
exactly; in STATUS, BUSY reads 1 (the model's reading, log 7), FOPC, CAUSE, HERR and FAULT are each
as before or as after, and the reserved bits read 0. The read changes nothing of the block. -/
def Obligations.RegisterReadsWhileBusy : Prop :=
  ∀ s t : State, s.busy = true → s.blockStep = .next t →
    ((s.hostAccess (.regRead .word 0x00C)).hostData = s.retired ∨
      (s.hostAccess (.regRead .word 0x00C)).hostData = t.retired) ∧
    ((s.hostAccess (.regRead .word 0x010)).hostData = s.dotres.setWidth 32 ∨
      (s.hostAccess (.regRead .word 0x010)).hostData = t.dotres.setWidth 32) ∧
    ((s.hostAccess (.regRead .word 0x014)).hostData = s.csrN.setWidth 32 ∨
      (s.hostAccess (.regRead .word 0x014)).hostData = t.csrN.setWidth 32) ∧
    ((s.hostAccess (.regRead .word 0x018)).hostData = s.csrMR.setWidth 32 ∨
      (s.hostAccess (.regRead .word 0x018)).hostData = t.csrMR.setWidth 32) ∧
    ((s.hostAccess (.regRead .word 0x01C)).hostData = s.csrNR.setWidth 32 ∨
      (s.hostAccess (.regRead .word 0x01C)).hostData = t.csrNR.setWidth 32) ∧
    (s.hostAccess (.regRead .word 0x000)).hostData = 0x54425043#32 ∧
    (s.hostAccess (.regRead .word 0x004)).hostData = 0#32 ∧
    (∀ i : Fin 8, (s.hostAccess (.regRead .word (0x040 + 4 * i.val))).hostData = s.cmd[i]) ∧
    (∀ x : Word, x = (s.hostAccess (.regRead .word 0x008)).hostData →
      x.getLsbD 0 = true ∧
      (x.getLsbD 1 = s.fault ∨ x.getLsbD 1 = t.fault) ∧
      (x.getLsbD 2 = s.herr ∨ x.getLsbD 2 = t.herr) ∧
      x.extractLsb' 3 5 = 0#5 ∧
      (x.extractLsb' 8 8 = s.cause ∨ x.extractLsb' 8 8 = t.cause) ∧
      (x.extractLsb' 16 8 = s.fopc ∨ x.extractLsb' 16 8 = t.fopc) ∧
      x.extractLsb' 24 8 = 0#8) ∧
    (∀ off, off % 4 = 0 → ∃ v n, s.hostAccess (.regRead .word off)
      = { s with hostData := v, freeTick := n })

/-! ### Reset -/

/-- 70_reset_and_hazards R261: a reset gives every register and ACC cell its reset value and does
not change DMEM; either reset source, while the block is idle, is exactly that. -/
def Obligations.ResetClearsRegistersKeepsDmem : Prop :=
  ∀ s : State,
    (∀ t : State, t = s.resetRegisters →
      t.csrN = 0 ∧ t.csrMR = 0 ∧ t.csrNR = 0 ∧ t.busy = false ∧ t.fault = false ∧
      t.herr = false ∧ t.cause = 0 ∧ t.fopc = 0 ∧ t.status = 0 ∧ t.retired = 0 ∧ t.dotres = 0 ∧
      (∀ i : Fin 8, t.cmd[i] = 0) ∧ (∀ l j, t.accCell l j = 0) ∧
      t.dmem = s.dmem ∧ t.dmemSize = s.dmemSize) ∧
    (s.busy = false → s.hostAccess .hardReset = s.resetRegisters) ∧
    (∀ v : Word, s.busy = false → v.getLsbD 1 = true →
      s.hostAccess (.regWrite .word 0x004 v) = s.resetRegisters)

/-- 70_reset_and_hazards R262: a soft reset while BUSY = 1 sets no HERR and drops the GO of the same
write; the command then completes by its own rule, and in the same step the reset is applied, so
its DMEM writes stay and its STATUS and RETIRED are gone. That a field of State remembers the
request is the model's (log 9); that the dropped GO sets no HERR, as a GO while busy alone does, is
the model's reading (log 18). -/
def Obligations.SoftResetWaitsForTheCommand : Prop :=
  ∀ (s t : State) (v : Word), s.busy = true → s.hostWaits = true → v.getLsbD 1 = true →
    s.hostAccess (.regWrite .word 0x004 v) = { s with srstPending := true } ∧
    (({ s with srstPending := true } : State).turnTaken.runCommand = .next t →
      step { s with srstPending := true } = .next t.resetRegisters ∧
      t.resetRegisters.dmem = t.dmem ∧ t.resetRegisters.status = 0 ∧
      t.resetRegisters.retired = 0)

/-- 70_reset_and_hazards R261, R263: rst_n during a command gives every register, CMD and ACC cell
its reset value at once, keeps DMEM_SIZE, and leaves each byte of DMEM as before the command or as
after it; which one is a free value (log 8). A soft reset that waited is gone (log 9). -/
def Obligations.HardResetWhileBusyMixesBytes : Prop :=
  ∀ s t : State, Memory.wf s.dmem = true → s.busy = true → s.blockStep = .next t →
    ∃ u, s.hostAccess .hardReset = u ∧ u.busy = false ∧ u.fault = false ∧ u.herr = false ∧
      u.cause = 0 ∧ u.fopc = 0 ∧ u.status = 0 ∧ u.retired = 0 ∧
      u.csrN = 0 ∧ u.csrMR = 0 ∧ u.csrNR = 0 ∧ u.dotres = 0 ∧ (∀ i : Fin 8, u.cmd[i] = 0) ∧
      (∀ l j, u.accCell l j = 0) ∧ u.srstPending = false ∧ u.dmemSize = s.dmemSize ∧
      ∀ a, u.read a = s.read a ∨ u.read a = t.read a
end

