-- ==== Sys2Proof/Laws/Decode.lean ====
section
/-! SUPPORT. The fields of words the encoder builds (30_encoding R75, R85). -/

namespace Sys2Proof

@[simp] theorem loHalf_pairWord (hi lo : Half) : loHalf (pairWord hi lo) = lo := by
  unfold loHalf pairWord
  apply BitVec.eq_of_getLsbD_eq
  intro i hi'
  rw [BitVec.getLsbD_extractLsb', show BitVec.getLsbD (w := 32) (hi ++ lo) (0 + i) =
    BitVec.getLsbD (w := 16 + 16) (hi ++ lo) (0 + i) from rfl, BitVec.getLsbD_append]
  simp [hi']

@[simp] theorem hiHalf_pairWord (hi lo : Half) : hiHalf (pairWord hi lo) = hi := by
  unfold hiHalf pairWord
  apply BitVec.eq_of_getLsbD_eq
  intro i hi'
  rw [BitVec.getLsbD_extractLsb', show BitVec.getLsbD (w := 32) (hi ++ lo) (16 + i) =
    BitVec.getLsbD (w := 16 + 16) (hi ++ lo) (16 + i) from rfl, BitVec.getLsbD_append]
  simp [hi']

/-- A mask within its lanes survives the encoder and the decoder (45_rowdot R212). -/
theorem maskOf_setWidth (w : Lanes) (m : Half) (h : w.maskOk m = true) :
    maskOf w (m.setWidth 32) = m := by
  cases w
  · have hm : m.toNat < 256 := by simpa [Lanes.maskOk] using h
    apply BitVec.eq_of_toNat_eq
    simp [maskOf, BitVec.extractLsb'_toNat]
    omega
  · apply BitVec.eq_of_toNat_eq
    simp [maskOf, BitVec.extractLsb'_toNat]
    omega

/-- What the decoder makes of a mask word is within its lanes (30_encoding R85). -/
theorem maskOk_maskOf (w : Lanes) (m : Word) : w.maskOk (maskOf w m) = true := by
  cases w
  · simp [maskOf, Lanes.maskOk, BitVec.extractLsb'_toNat]
    omega
  · rfl

@[simp] theorem lanesOf_dotrWord (w : Lanes) (v : BitVec 2) : lanesOf (dotrWord w v) = w := by
  cases w <;> revert v <;> decide

end Sys2Proof
end

