-- ==== Sys2Proof/Laws/State.lean ====
section
/-! SUPPORT. Every field of the state after every update of the operations: one lemma per field per
update, all by rfl, so that no proof unfolds a record update. -/

namespace Sys2Proof.Machine

variable (s : State)

/-! ### Retiring a command (20_memory R55) -/

@[simp] theorem State.retire_csrN : s.retire.csrN = s.csrN := rfl
@[simp] theorem State.retire_csrMR : s.retire.csrMR = s.csrMR := rfl
@[simp] theorem State.retire_csrNR : s.retire.csrNR = s.csrNR := rfl
@[simp] theorem State.retire_busy : s.retire.busy = false := rfl
@[simp] theorem State.retire_fault : s.retire.fault = s.fault := rfl
@[simp] theorem State.retire_herr : s.retire.herr = s.herr := rfl
@[simp] theorem State.retire_cause : s.retire.cause = s.cause := rfl
@[simp] theorem State.retire_fopc : s.retire.fopc = s.fopc := rfl
@[simp] theorem State.retire_retired : s.retire.retired = s.retired + 1 := rfl
@[simp] theorem State.retire_dotres : s.retire.dotres = s.dotres := rfl
@[simp] theorem State.retire_cmd : s.retire.cmd = s.cmd := rfl
@[simp] theorem State.retire_acc : s.retire.acc = s.acc := rfl
@[simp] theorem State.retire_dmem : s.retire.dmem = s.dmem := rfl
@[simp] theorem State.retire_dmemSize : s.retire.dmemSize = s.dmemSize := rfl
@[simp] theorem State.retire_srstPending : s.retire.srstPending = s.srstPending := rfl
@[simp] theorem State.retire_host : s.retire.host = s.host := rfl
@[simp] theorem State.retire_hostData : s.retire.hostData = s.hostData := rfl
@[simp] theorem State.retire_freeTick : s.retire.freeTick = s.freeTick := rfl

/-! ### Fault entry (60_exceptions R236) -/

@[simp] theorem State.raise_csrN (c : Cause) : (s.raise c).csrN = s.csrN := rfl
@[simp] theorem State.raise_csrMR (c : Cause) : (s.raise c).csrMR = s.csrMR := rfl
@[simp] theorem State.raise_csrNR (c : Cause) : (s.raise c).csrNR = s.csrNR := rfl
@[simp] theorem State.raise_busy (c : Cause) : (s.raise c).busy = false := rfl
@[simp] theorem State.raise_fault (c : Cause) : (s.raise c).fault = true := rfl
@[simp] theorem State.raise_herr (c : Cause) : (s.raise c).herr = s.herr := rfl
@[simp] theorem State.raise_cause (c : Cause) : (s.raise c).cause = c.code := rfl
@[simp] theorem State.raise_fopc (c : Cause) : (s.raise c).fopc = opcField s.cmd[0] := rfl
@[simp] theorem State.raise_retired (c : Cause) : (s.raise c).retired = s.retired := rfl
@[simp] theorem State.raise_dotres (c : Cause) : (s.raise c).dotres = s.dotres := rfl
@[simp] theorem State.raise_cmd (c : Cause) : (s.raise c).cmd = s.cmd := rfl
@[simp] theorem State.raise_acc (c : Cause) : (s.raise c).acc = s.acc := rfl
@[simp] theorem State.raise_dmem (c : Cause) : (s.raise c).dmem = s.dmem := rfl
@[simp] theorem State.raise_dmemSize (c : Cause) : (s.raise c).dmemSize = s.dmemSize := rfl
@[simp] theorem State.raise_srstPending (c : Cause) : (s.raise c).srstPending = s.srstPending := rfl
@[simp] theorem State.raise_host (c : Cause) : (s.raise c).host = s.host := rfl
@[simp] theorem State.raise_hostData (c : Cause) : (s.raise c).hostData = s.hostData := rfl
@[simp] theorem State.raise_freeTick (c : Cause) : (s.raise c).freeTick = s.freeTick := rfl

/-! ### DMEM writes (20_memory R56) -/

@[simp] theorem State.store_csrN (ws : List Host.Cell) : (s.store ws).csrN = s.csrN := rfl
@[simp] theorem State.store_csrMR (ws : List Host.Cell) : (s.store ws).csrMR = s.csrMR := rfl
@[simp] theorem State.store_csrNR (ws : List Host.Cell) : (s.store ws).csrNR = s.csrNR := rfl
@[simp] theorem State.store_busy (ws : List Host.Cell) : (s.store ws).busy = s.busy := rfl
@[simp] theorem State.store_fault (ws : List Host.Cell) : (s.store ws).fault = s.fault := rfl
@[simp] theorem State.store_herr (ws : List Host.Cell) : (s.store ws).herr = s.herr := rfl
@[simp] theorem State.store_cause (ws : List Host.Cell) : (s.store ws).cause = s.cause := rfl
@[simp] theorem State.store_fopc (ws : List Host.Cell) : (s.store ws).fopc = s.fopc := rfl
@[simp] theorem State.store_retired (ws : List Host.Cell) : (s.store ws).retired = s.retired := rfl
@[simp] theorem State.store_dotres (ws : List Host.Cell) : (s.store ws).dotres = s.dotres := rfl
@[simp] theorem State.store_cmd (ws : List Host.Cell) : (s.store ws).cmd = s.cmd := rfl
@[simp] theorem State.store_acc (ws : List Host.Cell) : (s.store ws).acc = s.acc := rfl
@[simp] theorem State.store_dmem (ws : List Host.Cell) : (s.store ws).dmem = Memory.writeAll s.dmem ws := rfl
@[simp] theorem State.store_dmemSize (ws : List Host.Cell) : (s.store ws).dmemSize = s.dmemSize := rfl
@[simp] theorem State.store_srstPending (ws : List Host.Cell) : (s.store ws).srstPending = s.srstPending := rfl
@[simp] theorem State.store_host (ws : List Host.Cell) : (s.store ws).host = s.host := rfl
@[simp] theorem State.store_hostData (ws : List Host.Cell) : (s.store ws).hostData = s.hostData := rfl
@[simp] theorem State.store_freeTick (ws : List Host.Cell) : (s.store ws).freeTick = s.freeTick := rfl

/-! ### TCLR's effect (43_accumulator R171) -/

@[simp] theorem State.clearAcc_csrN : s.clearAcc.csrN = s.csrN := rfl
@[simp] theorem State.clearAcc_csrMR : s.clearAcc.csrMR = s.csrMR := rfl
@[simp] theorem State.clearAcc_csrNR : s.clearAcc.csrNR = s.csrNR := rfl
@[simp] theorem State.clearAcc_busy : s.clearAcc.busy = s.busy := rfl
@[simp] theorem State.clearAcc_fault : s.clearAcc.fault = s.fault := rfl
@[simp] theorem State.clearAcc_herr : s.clearAcc.herr = s.herr := rfl
@[simp] theorem State.clearAcc_cause : s.clearAcc.cause = s.cause := rfl
@[simp] theorem State.clearAcc_fopc : s.clearAcc.fopc = s.fopc := rfl
@[simp] theorem State.clearAcc_retired : s.clearAcc.retired = s.retired := rfl
@[simp] theorem State.clearAcc_dotres : s.clearAcc.dotres = s.dotres := rfl
@[simp] theorem State.clearAcc_cmd : s.clearAcc.cmd = s.cmd := rfl
@[simp] theorem State.clearAcc_acc : s.clearAcc.acc = Vector.replicate 16 (Vector.replicate 16 0#8) := rfl
@[simp] theorem State.clearAcc_dmem : s.clearAcc.dmem = s.dmem := rfl
@[simp] theorem State.clearAcc_dmemSize : s.clearAcc.dmemSize = s.dmemSize := rfl
@[simp] theorem State.clearAcc_srstPending : s.clearAcc.srstPending = s.srstPending := rfl
@[simp] theorem State.clearAcc_host : s.clearAcc.host = s.host := rfl
@[simp] theorem State.clearAcc_hostData : s.clearAcc.hostData = s.hostData := rfl
@[simp] theorem State.clearAcc_freeTick : s.clearAcc.freeTick = s.freeTick := rfl

/-! ### Writing the active tile (10_state R27) -/

@[simp] theorem State.setActive_csrN (f : Nat → Nat → Byte) : (s.setActive f).csrN = s.csrN := rfl
@[simp] theorem State.setActive_csrMR (f : Nat → Nat → Byte) : (s.setActive f).csrMR = s.csrMR := rfl
@[simp] theorem State.setActive_csrNR (f : Nat → Nat → Byte) : (s.setActive f).csrNR = s.csrNR := rfl
@[simp] theorem State.setActive_busy (f : Nat → Nat → Byte) : (s.setActive f).busy = s.busy := rfl
@[simp] theorem State.setActive_fault (f : Nat → Nat → Byte) : (s.setActive f).fault = s.fault := rfl
@[simp] theorem State.setActive_herr (f : Nat → Nat → Byte) : (s.setActive f).herr = s.herr := rfl
@[simp] theorem State.setActive_cause (f : Nat → Nat → Byte) : (s.setActive f).cause = s.cause := rfl
@[simp] theorem State.setActive_fopc (f : Nat → Nat → Byte) : (s.setActive f).fopc = s.fopc := rfl
@[simp] theorem State.setActive_retired (f : Nat → Nat → Byte) : (s.setActive f).retired = s.retired := rfl
@[simp] theorem State.setActive_dotres (f : Nat → Nat → Byte) : (s.setActive f).dotres = s.dotres := rfl
@[simp] theorem State.setActive_cmd (f : Nat → Nat → Byte) : (s.setActive f).cmd = s.cmd := rfl
@[simp] theorem State.setActive_dmem (f : Nat → Nat → Byte) : (s.setActive f).dmem = s.dmem := rfl
@[simp] theorem State.setActive_dmemSize (f : Nat → Nat → Byte) : (s.setActive f).dmemSize = s.dmemSize := rfl
@[simp] theorem State.setActive_srstPending (f : Nat → Nat → Byte) : (s.setActive f).srstPending = s.srstPending := rfl
@[simp] theorem State.setActive_host (f : Nat → Nat → Byte) : (s.setActive f).host = s.host := rfl
@[simp] theorem State.setActive_hostData (f : Nat → Nat → Byte) : (s.setActive f).hostData = s.hostData := rfl
@[simp] theorem State.setActive_freeTick (f : Nat → Nat → Byte) : (s.setActive f).freeTick = s.freeTick := rfl

/-! ### A DOTR's effect (45_rowdot R215) -/

@[simp] theorem State.storeLanes_csrN (w : Lanes) (dst : Nat) (lane : Nat → Byte) : (s.storeLanes w dst lane).csrN = s.csrN := rfl
@[simp] theorem State.storeLanes_csrMR (w : Lanes) (dst : Nat) (lane : Nat → Byte) : (s.storeLanes w dst lane).csrMR = s.csrMR := rfl
@[simp] theorem State.storeLanes_csrNR (w : Lanes) (dst : Nat) (lane : Nat → Byte) : (s.storeLanes w dst lane).csrNR = s.csrNR := rfl
@[simp] theorem State.storeLanes_busy (w : Lanes) (dst : Nat) (lane : Nat → Byte) : (s.storeLanes w dst lane).busy = s.busy := rfl
@[simp] theorem State.storeLanes_fault (w : Lanes) (dst : Nat) (lane : Nat → Byte) : (s.storeLanes w dst lane).fault = s.fault := rfl
@[simp] theorem State.storeLanes_herr (w : Lanes) (dst : Nat) (lane : Nat → Byte) : (s.storeLanes w dst lane).herr = s.herr := rfl
@[simp] theorem State.storeLanes_cause (w : Lanes) (dst : Nat) (lane : Nat → Byte) : (s.storeLanes w dst lane).cause = s.cause := rfl
@[simp] theorem State.storeLanes_fopc (w : Lanes) (dst : Nat) (lane : Nat → Byte) : (s.storeLanes w dst lane).fopc = s.fopc := rfl
@[simp] theorem State.storeLanes_retired (w : Lanes) (dst : Nat) (lane : Nat → Byte) : (s.storeLanes w dst lane).retired = s.retired := rfl
@[simp] theorem State.storeLanes_dotres (w : Lanes) (dst : Nat) (lane : Nat → Byte) : (s.storeLanes w dst lane).dotres = laneSum (laneProducts w lane) := rfl
@[simp] theorem State.storeLanes_cmd (w : Lanes) (dst : Nat) (lane : Nat → Byte) : (s.storeLanes w dst lane).cmd = s.cmd := rfl
@[simp] theorem State.storeLanes_acc (w : Lanes) (dst : Nat) (lane : Nat → Byte) : (s.storeLanes w dst lane).acc = s.acc := rfl
@[simp] theorem State.storeLanes_dmem (w : Lanes) (dst : Nat) (lane : Nat → Byte) : (s.storeLanes w dst lane).dmem = Memory.writeAll s.dmem (laneWrites w dst lane) := rfl
@[simp] theorem State.storeLanes_dmemSize (w : Lanes) (dst : Nat) (lane : Nat → Byte) : (s.storeLanes w dst lane).dmemSize = s.dmemSize := rfl
@[simp] theorem State.storeLanes_srstPending (w : Lanes) (dst : Nat) (lane : Nat → Byte) : (s.storeLanes w dst lane).srstPending = s.srstPending := rfl
@[simp] theorem State.storeLanes_host (w : Lanes) (dst : Nat) (lane : Nat → Byte) : (s.storeLanes w dst lane).host = s.host := rfl
@[simp] theorem State.storeLanes_hostData (w : Lanes) (dst : Nat) (lane : Nat → Byte) : (s.storeLanes w dst lane).hostData = s.hostData := rfl
@[simp] theorem State.storeLanes_freeTick (w : Lanes) (dst : Nat) (lane : Nat → Byte) : (s.storeLanes w dst lane).freeTick = s.freeTick := rfl

/-! ### A host-protocol error (60_exceptions R242) -/

@[simp] theorem State.setHerr_csrN : s.setHerr.csrN = s.csrN := rfl
@[simp] theorem State.setHerr_csrMR : s.setHerr.csrMR = s.csrMR := rfl
@[simp] theorem State.setHerr_csrNR : s.setHerr.csrNR = s.csrNR := rfl
@[simp] theorem State.setHerr_busy : s.setHerr.busy = s.busy := rfl
@[simp] theorem State.setHerr_fault : s.setHerr.fault = s.fault := rfl
@[simp] theorem State.setHerr_herr : s.setHerr.herr = true := rfl
@[simp] theorem State.setHerr_cause : s.setHerr.cause = s.cause := rfl
@[simp] theorem State.setHerr_fopc : s.setHerr.fopc = s.fopc := rfl
@[simp] theorem State.setHerr_retired : s.setHerr.retired = s.retired := rfl
@[simp] theorem State.setHerr_dotres : s.setHerr.dotres = s.dotres := rfl
@[simp] theorem State.setHerr_cmd : s.setHerr.cmd = s.cmd := rfl
@[simp] theorem State.setHerr_acc : s.setHerr.acc = s.acc := rfl
@[simp] theorem State.setHerr_dmem : s.setHerr.dmem = s.dmem := rfl
@[simp] theorem State.setHerr_dmemSize : s.setHerr.dmemSize = s.dmemSize := rfl
@[simp] theorem State.setHerr_srstPending : s.setHerr.srstPending = s.srstPending := rfl
@[simp] theorem State.setHerr_host : s.setHerr.host = s.host := rfl
@[simp] theorem State.setHerr_hostData : s.setHerr.hostData = s.hostData := rfl
@[simp] theorem State.setHerr_freeTick : s.setHerr.freeTick = s.freeTick := rfl

/-! ### A host read's answer -/

@[simp] theorem State.answer_csrN (v : Word) : (s.answer v).csrN = s.csrN := rfl
@[simp] theorem State.answer_csrMR (v : Word) : (s.answer v).csrMR = s.csrMR := rfl
@[simp] theorem State.answer_csrNR (v : Word) : (s.answer v).csrNR = s.csrNR := rfl
@[simp] theorem State.answer_busy (v : Word) : (s.answer v).busy = s.busy := rfl
@[simp] theorem State.answer_fault (v : Word) : (s.answer v).fault = s.fault := rfl
@[simp] theorem State.answer_herr (v : Word) : (s.answer v).herr = s.herr := rfl
@[simp] theorem State.answer_cause (v : Word) : (s.answer v).cause = s.cause := rfl
@[simp] theorem State.answer_fopc (v : Word) : (s.answer v).fopc = s.fopc := rfl
@[simp] theorem State.answer_retired (v : Word) : (s.answer v).retired = s.retired := rfl
@[simp] theorem State.answer_dotres (v : Word) : (s.answer v).dotres = s.dotres := rfl
@[simp] theorem State.answer_cmd (v : Word) : (s.answer v).cmd = s.cmd := rfl
@[simp] theorem State.answer_acc (v : Word) : (s.answer v).acc = s.acc := rfl
@[simp] theorem State.answer_dmem (v : Word) : (s.answer v).dmem = s.dmem := rfl
@[simp] theorem State.answer_dmemSize (v : Word) : (s.answer v).dmemSize = s.dmemSize := rfl
@[simp] theorem State.answer_srstPending (v : Word) : (s.answer v).srstPending = s.srstPending := rfl
@[simp] theorem State.answer_host (v : Word) : (s.answer v).host = s.host := rfl
@[simp] theorem State.answer_hostData (v : Word) : (s.answer v).hostData = v := rfl
@[simp] theorem State.answer_freeTick (v : Word) : (s.answer v).freeTick = s.freeTick := rfl

/-! ### Taking a free value -/

@[simp] theorem State.tick_csrN : s.tick.csrN = s.csrN := rfl
@[simp] theorem State.tick_csrMR : s.tick.csrMR = s.csrMR := rfl
@[simp] theorem State.tick_csrNR : s.tick.csrNR = s.csrNR := rfl
@[simp] theorem State.tick_busy : s.tick.busy = s.busy := rfl
@[simp] theorem State.tick_fault : s.tick.fault = s.fault := rfl
@[simp] theorem State.tick_herr : s.tick.herr = s.herr := rfl
@[simp] theorem State.tick_cause : s.tick.cause = s.cause := rfl
@[simp] theorem State.tick_fopc : s.tick.fopc = s.fopc := rfl
@[simp] theorem State.tick_retired : s.tick.retired = s.retired := rfl
@[simp] theorem State.tick_dotres : s.tick.dotres = s.dotres := rfl
@[simp] theorem State.tick_cmd : s.tick.cmd = s.cmd := rfl
@[simp] theorem State.tick_acc : s.tick.acc = s.acc := rfl
@[simp] theorem State.tick_dmem : s.tick.dmem = s.dmem := rfl
@[simp] theorem State.tick_dmemSize : s.tick.dmemSize = s.dmemSize := rfl
@[simp] theorem State.tick_srstPending : s.tick.srstPending = s.srstPending := rfl
@[simp] theorem State.tick_host : s.tick.host = s.host := rfl
@[simp] theorem State.tick_hostData : s.tick.hostData = s.hostData := rfl
@[simp] theorem State.tick_freeTick : s.tick.freeTick = s.freeTick + 1 := rfl

/-! ### A reset (70_reset_and_hazards R261) -/

@[simp] theorem State.resetRegisters_csrN : s.resetRegisters.csrN = 0 := rfl
@[simp] theorem State.resetRegisters_csrMR : s.resetRegisters.csrMR = 0 := rfl
@[simp] theorem State.resetRegisters_csrNR : s.resetRegisters.csrNR = 0 := rfl
@[simp] theorem State.resetRegisters_busy : s.resetRegisters.busy = false := rfl
@[simp] theorem State.resetRegisters_fault : s.resetRegisters.fault = false := rfl
@[simp] theorem State.resetRegisters_herr : s.resetRegisters.herr = false := rfl
@[simp] theorem State.resetRegisters_cause : s.resetRegisters.cause = 0 := rfl
@[simp] theorem State.resetRegisters_fopc : s.resetRegisters.fopc = 0 := rfl
@[simp] theorem State.resetRegisters_retired : s.resetRegisters.retired = 0 := rfl
@[simp] theorem State.resetRegisters_dotres : s.resetRegisters.dotres = 0 := rfl
@[simp] theorem State.resetRegisters_cmd : s.resetRegisters.cmd = Vector.replicate 8 0 := rfl
@[simp] theorem State.resetRegisters_acc : s.resetRegisters.acc = Vector.replicate 16 (Vector.replicate 16 0) := rfl
@[simp] theorem State.resetRegisters_dmem : s.resetRegisters.dmem = s.dmem := rfl
@[simp] theorem State.resetRegisters_dmemSize : s.resetRegisters.dmemSize = s.dmemSize := rfl
@[simp] theorem State.resetRegisters_srstPending : s.resetRegisters.srstPending = false := rfl
@[simp] theorem State.resetRegisters_host : s.resetRegisters.host = s.host := rfl
@[simp] theorem State.resetRegisters_hostData : s.resetRegisters.hostData = s.hostData := rfl
@[simp] theorem State.resetRegisters_freeTick : s.resetRegisters.freeTick = s.freeTick := rfl

/-! ### Cells of the tile -/

/-- A cell after writing the active tile: written where active, kept elsewhere (10_state R27). -/
@[simp] theorem State.accCell_setActive (f : Nat → Nat → Byte) (l j : Nat) :
    (s.setActive f).accCell l j =
      if l < 16 ∧ j < 16 then (if s.isActive l j then f l j else s.accCell l j) else 0 := by
  unfold State.accCell State.setActive
  by_cases h : l < 16 ∧ j < 16
  · simp only [h, and_self, dite_true, if_true]
    by_cases ha : s.isActive l j <;> simp [ha]
  · simp [h]

/-- Every cell after TCLR (43_accumulator R171). -/
@[simp] theorem State.accCell_clearAcc (l j : Nat) : s.clearAcc.accCell l j = 0 := by
  unfold State.accCell State.clearAcc
  split <;> simp

/-- There is no cell outside 16 × 16 (10_state R27). -/
theorem State.accCell_outside (l j : Nat) (h : ¬(l < 16 ∧ j < 16)) : s.accCell l j = 0 := by
  simp [State.accCell, h]

/-- Two tiles with the same cells are the same tile. -/
theorem State.acc_ext (s t : State)
    (h : ∀ l j, l < 16 → j < 16 → s.accCell l j = t.accCell l j) : s.acc = t.acc := by
  apply Vector.ext
  intro l hl
  apply Vector.ext
  intro j hj
  have := h l j hl hj
  simpa [State.accCell, hl, hj] using this

@[simp] theorem State.accCell_retire (l j : Nat) : s.retire.accCell l j = s.accCell l j := rfl
@[simp] theorem State.accCell_store (ws : List Host.Cell) (l j : Nat) :
    (s.store ws).accCell l j = s.accCell l j := rfl
@[simp] theorem State.read_retire (a : Nat) : s.retire.read a = s.read a := rfl
@[simp] theorem State.read_raise (c : Cause) (a : Nat) : (s.raise c).read a = s.read a := rfl
@[simp] theorem State.read_setActive (f : Nat → Nat → Byte) (a : Nat) :
    (s.setActive f).read a = s.read a := rfl
@[simp] theorem State.read_clearAcc (a : Nat) : s.clearAcc.read a = s.read a := rfl
theorem State.read_store (ws : List Host.Cell) (a : Nat) :
    (s.store ws).read a = Memory.read (Memory.writeAll s.dmem ws) a := rfl

end Sys2Proof.Machine
end

