-- ==== Sys2Proof/Laws/Memory.lean ====
section
/-! SUPPORT. The laws of DMEM: the canonical form is kept by every operation, a read after a write
gives the value written, every other address reads as before, and equal memories are equal data. -/

namespace Sys2Proof.Machine

/-! ### The canonical form -/

theorem Memory.wfFrom_mono {lo lo' : Nat} (h : lo' ≤ lo) :
    ∀ {m : Memory}, Memory.wfFrom lo m = true → Memory.wfFrom lo' m = true
  | [], _ => rfl
  | (b, v) :: rest, hm => by
    simp only [Memory.wfFrom, Bool.and_eq_true, decide_eq_true_eq] at hm ⊢
    exact ⟨⟨by omega, hm.1.2⟩, hm.2⟩

/-- An address below every entry reads as an unlisted one. -/
theorem Memory.read_below : ∀ {m : Memory} {lo a : Nat},
    Memory.wfFrom lo m = true → a < lo → Memory.read m a = Config.unlistedByte
  | [], _, _, _, _ => rfl
  | (b, v) :: rest, lo, a, hm, ha => by
    simp only [Memory.wfFrom, Bool.and_eq_true, decide_eq_true_eq] at hm
    have hne : a ≠ b := by omega
    simp only [Memory.read, hne, if_false]
    exact Memory.read_below hm.2 (by omega)

/-- A write keeps the canonical form. -/
theorem Memory.wfFrom_write : ∀ {m : Memory} {lo a : Nat} (v : Byte),
    Memory.wfFrom lo m = true → lo ≤ a → Memory.wfFrom lo (Memory.write m a v) = true
  | [], lo, a, v, _, ha => by
    by_cases hv : v = Config.unlistedByte <;> simp [Memory.write, Memory.wfFrom, hv, ha]
  | (b, w) :: rest, lo, a, v, hm, ha => by
    have hm' := hm
    simp only [Memory.wfFrom, Bool.and_eq_true, decide_eq_true_eq] at hm
    simp only [Memory.write]
    split
    · split
      · exact hm'
      · simp only [Memory.wfFrom, Bool.and_eq_true, decide_eq_true_eq]
        exact ⟨⟨ha, by simpa using ‹¬v = _›⟩, ⟨by omega, hm.1.2⟩, hm.2⟩
    · split
      · subst_vars
        split
        · exact Memory.wfFrom_mono (by omega) hm.2
        · simp only [Memory.wfFrom, Bool.and_eq_true, decide_eq_true_eq]
          exact ⟨⟨ha, by simpa using ‹¬v = _›⟩, hm.2⟩
      · simp only [Memory.wfFrom, Bool.and_eq_true, decide_eq_true_eq]
        exact ⟨hm.1, Memory.wfFrom_write v hm.2 (by omega)⟩

theorem Memory.wf_write {m : Memory} (a : Nat) (v : Byte) (h : Memory.wf m = true) :
    Memory.wf (Memory.write m a v) = true :=
  Memory.wfFrom_write v h (Nat.zero_le a)

theorem Memory.wf_writeAll (ws : List Host.Cell) : ∀ {m : Memory},
    Memory.wf m = true → Memory.wf (Memory.writeAll m ws) = true := by
  induction ws with
  | nil => intro m h; exact h
  | cons c ws ih => intro m h; exact ih (Memory.wf_write c.1 c.2 h)

theorem Memory.wf_mix (landed : Nat → Bool) {old new : Memory} (h : Memory.wf old = true) :
    Memory.wf (Memory.mix landed old new) = true :=
  Memory.wf_writeAll _ h

/-! ### The size of DMEM -/

/-- What a write can list: the written entry and what was listed before. -/
theorem Memory.mem_write {a : Nat} {v : Byte} {c : Host.Cell} : ∀ {m : Memory},
    c ∈ Memory.write m a v → c = (a, v) ∨ c ∈ m
  | [], h => by
    by_cases hv : v = Config.unlistedByte <;> simp_all [Memory.write]
  | (b, w) :: rest, h => by
    simp only [Memory.write] at h
    split at h
    · split at h
      · exact .inr h
      · simpa using h
    · split at h
      · split at h
        · exact .inr (List.mem_cons_of_mem _ h)
        · rcases List.mem_cons.mp h with h | h
          · exact .inl h
          · exact .inr (List.mem_cons_of_mem _ h)
      · rcases List.mem_cons.mp h with h | h
        · exact .inr (h ▸ List.mem_cons_self)
        · exact (Memory.mem_write h).imp_right (List.mem_cons_of_mem _)

theorem Memory.within_write {size a : Nat} (v : Byte) (ha : a < size) {m : Memory}
    (h : Memory.within size m = true) : Memory.within size (Memory.write m a v) = true := by
  simp only [Memory.within, List.all_eq_true, decide_eq_true_eq] at h ⊢
  intro c hc
  rcases Memory.mem_write hc with rfl | hc
  · exact ha
  · exact h c hc

theorem Memory.within_writeAll {size : Nat} (ws : List Host.Cell) : ∀ {m : Memory},
    (∀ c ∈ ws, c.1 < size) → Memory.within size m = true →
      Memory.within size (Memory.writeAll m ws) = true := by
  induction ws with
  | nil => intro m _ h; exact h
  | cons c ws ih =>
    intro m hc h
    exact ih (fun d hd => hc d (List.mem_cons_of_mem _ hd))
      (Memory.within_write c.2 (hc c List.mem_cons_self) h)

/-! ### Reading after writing -/

theorem Memory.read_write_of_wfFrom : ∀ {m : Memory} {lo : Nat} (a : Nat) (v : Byte) (x : Nat),
    Memory.wfFrom lo m = true →
      Memory.read (Memory.write m a v) x = if x = a then v else Memory.read m x
  | [], _, a, v, x, _ => by
    by_cases hv : v = Config.unlistedByte <;> by_cases hx : x = a <;>
      simp [Memory.write, Memory.read, hv, hx]
  | (b, w) :: rest, lo, a, v, x, hm => by
    have hm' := hm
    simp only [Memory.wfFrom, Bool.and_eq_true, decide_eq_true_eq] at hm
    have ih := Memory.read_write_of_wfFrom a v x hm.2
    simp only [Memory.write]
    split
    · rename_i hab
      have hlow : x = a → Memory.read ((b, w) :: rest) x = Config.unlistedByte := by
        intro hx
        exact Memory.read_below (Memory.wfFrom_mono (le_refl b)
          (by simp only [Memory.wfFrom, Bool.and_eq_true, decide_eq_true_eq]
              exact ⟨⟨le_refl b, hm.1.2⟩, hm.2⟩)) (by omega)
      split
      · rename_i hv
        by_cases hx : x = a
        · rw [if_pos hx, hlow hx, hv]
        · rw [if_neg hx]
      · by_cases hx : x = a <;> simp [Memory.read, hx]
    · split
      · rename_i hba
        subst hba
        have hrest : Memory.read rest a = Config.unlistedByte :=
          Memory.read_below hm.2 (by omega)
        split
        · rename_i hv
          by_cases hx : x = a
          · rw [if_pos hx, hx, hrest, hv]
          · simp [Memory.read, hx]
        · by_cases hx : x = a <;> simp [Memory.read, hx]
      · simp only [Memory.read]
        by_cases hxb : x = b
        · have : x ≠ a := by omega
          simp [hxb]
          intro h
          omega
        · simp only [hxb, if_false]
          exact ih

/-- A read after a write: the value written at its address, every other address as before. -/
theorem Memory.read_write {m : Memory} (h : Memory.wf m = true) (a : Nat) (v : Byte) (x : Nat) :
    Memory.read (Memory.write m a v) x = if x = a then v else Memory.read m x :=
  Memory.read_write_of_wfFrom a v x h

/-- An address none of the writes names reads as before. -/
theorem Memory.read_writeAll_of_notMem (ws : List Host.Cell) : ∀ {m : Memory} {x : Nat},
    Memory.wf m = true → (∀ c ∈ ws, c.1 ≠ x) →
      Memory.read (Memory.writeAll m ws) x = Memory.read m x := by
  induction ws with
  | nil => intro m x _ _; rfl
  | cons c ws ih =>
    intro m x h hx
    have h1 := ih (m := Memory.write m c.1 c.2) (Memory.wf_write c.1 c.2 h)
      (fun d hd => hx d (List.mem_cons_of_mem _ hd))
    rw [show Memory.writeAll m (c :: ws) = Memory.writeAll (Memory.write m c.1 c.2) ws from rfl, h1,
      Memory.read_write h, if_neg (Ne.symm (hx c List.mem_cons_self))]

/-- An address that some write names, all of them with the same byte, reads as that byte. -/
theorem Memory.read_writeAll_of_mem (ws : List Host.Cell) : ∀ {m : Memory} {x : Nat} {v : Byte},
    Memory.wf m = true → (∃ c ∈ ws, c.1 = x) → (∀ c ∈ ws, c.1 = x → c.2 = v) →
      Memory.read (Memory.writeAll m ws) x = v := by
  induction ws with
  | nil => intro m x v _ he _; simp at he
  | cons c ws ih =>
    intro m x v h he hv
    rw [show Memory.writeAll m (c :: ws) = Memory.writeAll (Memory.write m c.1 c.2) ws from rfl]
    by_cases hw : ∃ d ∈ ws, d.1 = x
    · exact ih (Memory.wf_write c.1 c.2 h) hw (fun d hd => hv d (List.mem_cons_of_mem _ hd))
    · have hc : c.1 = x := by
        obtain ⟨d, hd, hdx⟩ := he
        rcases List.mem_cons.mp hd with rfl | hd
        · exact hdx
        · exact absurd ⟨d, hd, hdx⟩ hw
      rw [Memory.read_writeAll_of_notMem ws (Memory.wf_write c.1 c.2 h)
        (fun d hd hdx => hw ⟨d, hd, hdx⟩), Memory.read_write h, if_pos hc.symm]
      exact hv c List.mem_cons_self hc

/-- Each byte of a mix is the old one or the new one, as `landed` says
(70_reset_and_hazards R263). -/
theorem Memory.read_mix (landed : Nat → Bool) {old new : Memory} (h : Memory.wf old = true)
    (x : Nat) :
    Memory.read (Memory.mix landed old new) x =
      if landed x then Memory.read new x else Memory.read old x := by
  have unlisted : ∀ {m : Memory}, (∀ c ∈ m, c.1 ≠ x) → Memory.read m x = Config.unlistedByte := by
    intro m hm
    induction m with
    | nil => rfl
    | cons c m ih =>
      obtain ⟨b, v⟩ := c
      have : x ≠ b := fun hb => hm (b, v) List.mem_cons_self hb.symm
      simp only [Memory.read, this, if_false]
      exact ih (fun d hd => hm d (List.mem_cons_of_mem _ hd))
  unfold Memory.mix
  by_cases hx : ∃ c ∈ old ++ new, c.1 = x
  · obtain ⟨c, hc, hcx⟩ := hx
    apply Memory.read_writeAll_of_mem _ h
    · exact ⟨_, List.mem_map.mpr ⟨c, hc, rfl⟩, hcx⟩
    · intro d hd hdx
      obtain ⟨e, _, rfl⟩ := List.mem_map.mp hd
      simp only at hdx ⊢
      rw [hdx]
  · have hn : ∀ c ∈ old ++ new, c.1 ≠ x := fun c hc hcx => hx ⟨c, hc, hcx⟩
    rw [Memory.read_writeAll_of_notMem _ h]
    · rw [unlisted (fun c hc => hn c (List.mem_append_left _ hc)),
        unlisted (m := new) (fun c hc => hn c (List.mem_append_right _ hc))]
      simp
    · intro d hd
      obtain ⟨e, he, rfl⟩ := List.mem_map.mp hd
      exact hn e he

/-- Equal memories are equal data: two canonical forms that read alike are the same list. -/
theorem Memory.ext_of_read : ∀ {m n : Memory} {lo : Nat},
    Memory.wfFrom lo m = true → Memory.wfFrom lo n = true →
      (∀ x, Memory.read m x = Memory.read n x) → m = n
  | [], [], _, _, _, _ => rfl
  | [], (b, v) :: n, lo, _, hn, h => by
    simp only [Memory.wfFrom, Bool.and_eq_true, decide_eq_true_eq, bne_iff_ne] at hn
    exact absurd (by simpa [Memory.read] using (h b).symm) hn.1.2
  | (b, v) :: m, [], lo, hm, _, h => by
    simp only [Memory.wfFrom, Bool.and_eq_true, decide_eq_true_eq, bne_iff_ne] at hm
    exact absurd (by simpa [Memory.read] using h b) hm.1.2
  | (b, v) :: m, (c, w) :: n, lo, hm, hn, h => by
    have hm' := hm
    have hn' := hn
    simp only [Memory.wfFrom, Bool.and_eq_true, decide_eq_true_eq, bne_iff_ne] at hm hn
    have below : ∀ {x y : Nat} {u : Byte} {l : Memory}, x < y → u ≠ Config.unlistedByte →
        Memory.wfFrom (y + 1) l = true → Memory.read ((y, u) :: l) x = Config.unlistedByte := by
      intro x y u l hxy hu hl
      exact Memory.read_below (lo := y) (by simp [Memory.wfFrom, hu, hl]) hxy
    have hbc : b = c := by
      rcases Nat.lt_trichotomy b c with hlt | heq | hgt
      · have := h b
        rw [below hlt hn.1.2 hn.2] at this
        exact absurd (by simpa [Memory.read] using this) hm.1.2
      · exact heq
      · have := h c
        rw [below hgt hm.1.2 hm.2] at this
        exact absurd (by simpa [Memory.read] using this.symm) hn.1.2
    subst hbc
    have hvw : v = w := by simpa [Memory.read] using h b
    subst hvw
    have : m = n := by
      refine Memory.ext_of_read hm.2 hn.2 fun x => ?_
      by_cases hx : x = b
      · rw [Memory.read_below hm.2 (by omega), Memory.read_below hn.2 (by omega)]
      · have := h x
        simpa [Memory.read, hx] using this
    rw [this]

end Sys2Proof.Machine
end

