-- ==== Sys2Proof/Laws/Ops.lean ====
section
/-! SUPPORT. What each shared operation can do, said once: checks, the end of a command, loops of
writes, the bit and wrap helpers. -/

namespace Sys2Proof.Machine

/-! ### Checks (60_exceptions R233) -/

@[simp] theorem require_true (c : Cause) : require true c = .ok () := rfl
@[simp] theorem require_false (c : Cause) : require false c = .error c := rfl

theorem require_eq_ok {ok : Bool} {c : Cause} : require ok c = .ok () ↔ ok = true := by
  cases ok <;> simp [require]

/-- A check before others passes exactly when it holds and the others pass. -/
theorem require_bind_eq_ok {ok : Bool} {c : Cause} {k : Except Cause Unit} :
    (require ok c >>= fun _ => k) = .ok () ↔ ok = true ∧ k = .ok () := by
  cases ok <;> simp [require, bind, Except.bind]

/-- A check before others decides the cause when it fails. -/
theorem require_bind_false {c : Cause} {k : Except Cause Unit} :
    (require false c >>= fun _ => k) = .error c := rfl

theorem require_bind_true {c : Cause} {k : Except Cause Unit} :
    (require true c >>= fun _ => k) = k := rfl

/-- The checks in sequence pass exactly when both parts do. -/
theorem check_bind_eq_ok {a k : Except Cause Unit} :
    (a >>= fun _ => k) = .ok () ↔ a = .ok () ∧ k = .ok () := by
  cases a <;> simp [bind, Except.bind]

/-! ### The end of a command (20_memory R55) -/

theorem State.endCommand_ok (s : State) {check : Except Cause Unit} (perform : State → State)
    (h : check = .ok ()) : s.endCommand check perform = .next (perform s).retire := by
  subst h; rfl

theorem State.endCommand_error (s : State) {check : Except Cause Unit} {c : Cause}
    (perform : State → State) (h : check = .error c) :
    s.endCommand check perform = .next (s.raise c) := by
  subst h; rfl

/-- All a command can do: fault with STATUS alone written, or perform and retire. -/
theorem State.endCommand_cases (s : State) (check : Except Cause Unit)
    (perform : State → State) :
    (∃ c, check = .error c ∧ s.endCommand check perform = .next (s.raise c)) ∨
      (check = .ok () ∧ s.endCommand check perform = .next (perform s).retire) := by
  cases check with
  | error c => exact .inl ⟨c, rfl, rfl⟩
  | ok u => exact .inr ⟨rfl, rfl⟩

/-- A command always gives a next state. -/
theorem State.endCommand_next (s : State) (check : Except Cause Unit)
    (perform : State → State) : ∃ t, s.endCommand check perform = .next t :=
  ⟨_, rfl⟩

/-! ### Regions (00_scope R14) -/

theorem inDmem_eq_true {size base len : Nat} :
    inDmem size base len = true ↔ len = 0 ∨ base + len ≤ size := by
  simp [inDmem]

theorem inDmem_lt {size base len a : Nat} (h : inDmem size base len = true)
    (h1 : base ≤ a) (h2 : a < base + len) : a < size := by
  rcases inDmem_eq_true.mp h with h | h <;> omega

theorem overlaps_eq_false {a la b lb : Nat} :
    overlaps a la b lb = false ↔ la = 0 ∨ lb = 0 ∨ b + lb ≤ a ∨ a + la ≤ b := by
  simp only [overlaps, Bool.and_eq_false_iff, decide_eq_false_iff_not]
  omega

/-! ### Loops of writes (00_scope R15) -/

theorem mem_forLoop2 {α : Type} {m n : Nat} {body : Nat → Nat → α} {c : α} :
    c ∈ forLoop2 m n body ↔ ∃ x < m, ∃ y < n, body x y = c := by
  simp [forLoop2]

theorem mem_forLoop3 {α : Type} {m n k : Nat} {body : Nat → Nat → Nat → α} {c : α} :
    c ∈ forLoop3 m n k body ↔ ∃ x < m, ∃ y < n, ∃ z < k, body x y z = c := by
  simp [forLoop3, mem_forLoop2]

/-- A byte that no write names reads as before. -/
theorem State.read_store_of_notMem {s : State} (hwf : Memory.wf s.dmem = true)
    {ws : List Host.Cell} {a : Nat} (h : ∀ c ∈ ws, c.1 ≠ a) : (s.store ws).read a = s.read a :=
  Memory.read_writeAll_of_notMem ws hwf h

/-- A byte that some write names, each with the same value, reads as that value. -/
theorem State.read_store_of_mem {s : State} (hwf : Memory.wf s.dmem = true)
    {ws : List Host.Cell} {a : Nat} {v : Byte} (h : ∃ c ∈ ws, c.1 = a)
    (hv : ∀ c ∈ ws, c.1 = a → c.2 = v) : (s.store ws).read a = v :=
  Memory.read_writeAll_of_mem ws hwf h hv

/-- A two-index loop of writes at distinct addresses stores each of its bytes. -/
theorem State.read_store_forLoop2 {s : State} (hwf : Memory.wf s.dmem = true) {m n : Nat}
    {addr : Nat → Nat → Nat} {val : Nat → Nat → Byte}
    (inj : ∀ x y x' y', x < m → y < n → x' < m → y' < n → addr x y = addr x' y' → x = x' ∧ y = y')
    {x y : Nat} (hx : x < m) (hy : y < n) :
    (s.store (forLoop2 m n fun x y => (addr x y, val x y))).read (addr x y) = val x y := by
  apply State.read_store_of_mem hwf
  · exact ⟨(addr x y, val x y), mem_forLoop2.mpr ⟨x, hx, y, hy, rfl⟩, rfl⟩
  · intro c hc hca
    obtain ⟨x', hx', y', hy', rfl⟩ := mem_forLoop2.mp hc
    obtain ⟨rfl, rfl⟩ := inj x' y' x y hx' hy' hx hy hca
    rfl

/-- A three-index loop of writes at distinct addresses stores each of its bytes. -/
theorem State.read_store_forLoop3 {s : State} (hwf : Memory.wf s.dmem = true) {m n k : Nat}
    {addr : Nat → Nat → Nat → Nat} {val : Nat → Nat → Nat → Byte}
    (inj : ∀ x y z x' y' z', x < m → y < n → z < k → x' < m → y' < n → z' < k →
      addr x y z = addr x' y' z' → x = x' ∧ y = y' ∧ z = z')
    {x y z : Nat} (hx : x < m) (hy : y < n) (hz : z < k) :
    (s.store (forLoop3 m n k fun x y z => (addr x y z, val x y z))).read (addr x y z)
      = val x y z := by
  apply State.read_store_of_mem hwf
  · exact ⟨(addr x y z, val x y z), mem_forLoop3.mpr ⟨x, hx, y, hy, z, hz, rfl⟩, rfl⟩
  · intro c hc hca
    obtain ⟨x', hx', y', hy', z', hz', rfl⟩ := mem_forLoop3.mp hc
    obtain ⟨rfl, rfl, rfl⟩ := inj x' y' z' x y z hx' hy' hz' hx hy hz hca
    rfl

/-- Two digits in base `w` determine the number (42_packer R140, R144). -/
theorem digits_inj {w a b a' b' : Nat} (hb : b < w) (hb' : b' < w)
    (h : b + w * a = b' + w * a') : a = a' ∧ b = b' := by
  have hw : 0 < w := by omega
  have h1 := congrArg (· % w) h
  have h2 := congrArg (· / w) h
  simp only [Nat.add_mul_mod_self_left, Nat.mod_eq_of_lt hb, Nat.mod_eq_of_lt hb'] at h1
  simp only [Nat.add_mul_div_left _ _ hw, Nat.div_eq_of_lt hb, Nat.div_eq_of_lt hb'] at h2
  omega

/-- A panel offset determines its panel, step and lane (42_packer R151). -/
theorem panelOffset_inj {width steps p kk l p' kk' l' : Nat} (hkk : kk < steps) (hl : l < width)
    (hkk' : kk' < steps) (hl' : l' < width)
    (h : panelOffset width steps p kk l = panelOffset width steps p' kk' l') :
    p = p' ∧ kk = kk' ∧ l = l' := by
  unfold panelOffset at h
  have e : ∀ q i : Nat, q * width * steps + i * width = width * (i + steps * q) := by
    intro q i; ring
  rw [e, e] at h
  obtain ⟨h1, h2⟩ := digits_inj hl hl' (by omega :
    l + width * (kk + steps * p) = l' + width * (kk' + steps * p'))
  obtain ⟨h3, h4⟩ := digits_inj hkk hkk' h1
  exact ⟨h3, h4, h2⟩

/-- A panel offset lies inside its buffer (42_packer R144). -/
theorem panelOffset_lt {width steps panels p kk l : Nat} (hp : p < panels) (hkk : kk < steps)
    (hl : l < width) : panelOffset width steps p kk l < panels * width * steps := by
  unfold panelOffset
  have h1 : kk * width + l < steps * width := by nlinarith
  have h2 : p * width * steps + width * steps ≤ panels * width * steps := by
    have : (p + 1) * (width * steps) ≤ panels * (width * steps) :=
      Nat.mul_le_mul_right _ hp
    nlinarith
  nlinarith

/-! ### Bytes as integers (00_scope R11) -/

/-- `wrap8` only sees its argument modulo 256. -/
theorem wrap8_sext8 (b : Byte) : wrap8 (sext8 b) = b := by
  simp [wrap8, sext8]

theorem wrap8_add (x y : Int) : wrap8 (x + y) = wrap8 x + wrap8 y := by
  simp [wrap8, BitVec.ofInt_add]

theorem wrap8_mul (x y : Int) : wrap8 (x * y) = wrap8 x * wrap8 y := by
  simp [wrap8, BitVec.ofInt_mul]

/-- The signed product's low byte is the byte product. -/
theorem mulWrap_eq (a b : Byte) : mulWrap a b = a * b := by
  unfold mulWrap
  rw [wrap8_mul, wrap8_sext8, wrap8_sext8]

/-- One raw step is byte addition of the byte product. -/
theorem macStep_eq (acc a b : Byte) : macStep acc a b = acc + a * b := by
  unfold macStep
  rw [wrap8_add, wrap8_sext8, wrap8_sext8, mulWrap_eq]

/-- One packed step is byte addition of the popcount partial sum. -/
theorem popcountStep_eq (acc av aSgn bv bSgn : Byte) :
    popcountStep acc av aSgn bv bSgn = acc + wrap8 (popcountPartial av aSgn bv bSgn) := by
  unfold popcountStep
  rw [wrap8_add, wrap8_sext8]

/-- A mask byte's bit `b` is what its function says (41_codec R122). -/
theorem maskByte_getLsbD (f : Nat → Bool) {b : Nat} (hb : b < 8) :
    (maskByte f).getLsbD b = f b := by
  unfold maskByte
  simp only [List.range, List.range.loop, List.foldl]
  rcases (by omega : b = 0 ∨ b = 1 ∨ b = 2 ∨ b = 3 ∨ b = 4 ∨ b = 5 ∨ b = 6 ∨ b = 7) with
    rfl | rfl | rfl | rfl | rfl | rfl | rfl | rfl <;>
  generalize f 0 = b0 <;> generalize f 1 = b1 <;> generalize f 2 = b2 <;>
  generalize f 3 = b3 <;> generalize f 4 = b4 <;> generalize f 5 = b5 <;>
  generalize f 6 = b6 <;> generalize f 7 = b7 <;>
  revert b0 b1 b2 b3 b4 b5 b6 b7 <;> decide

end Sys2Proof.Machine
end

