-- ==== Sys2Proof/Laws/Exec.lean ====
section
/-! SUPPORT. Every command as one check followed by one effect, so that what is true of all
commands is proved of the shared shape `State.endCommand` (20_memory R55). -/

namespace Sys2Proof.Machine

/-- The checks of a command, in the order of its meaning. -/
def commandCheck (s : State) : Instr → Except Cause Unit
  | .nop => .ok ()
  | .cfg idx val => require (legalCfg idx val) .badCfg
  | .zfill dst len => require (inDmem s.dmemSize dst.toNat len.toNat) .addrRange
  | .xposeC2R src dst rows cols => xposeCheck s src.toNat dst.toNat (rows.toNat * cols.toNat)
  | .xposeR2C src dst rows cols => xposeCheck s src.toNat dst.toNat (rows.toNat * cols.toNat)
  | .cmpr src dv ds len => cmprCheck s src.toNat dv.toNat ds.toNat len.toNat
  | .packA src dst row0 k0 mc kc =>
    packRawCheck s s.csrMR.toNat src.toNat dst.toNat row0.toNat mc.toNat k0.toNat kc.toNat
  | .packAP sv ss dv ds row0 k0 mc kc =>
    packPackedCheck s s.csrMR.toNat sv.toNat ss.toNat dv.toNat ds.toNat row0.toNat mc.toNat
      k0.toNat kc.toNat
  | .packB src dst col0 k0 nc kc =>
    packRawCheck s s.csrNR.toNat src.toNat dst.toNat col0.toNat nc.toNat k0.toNat kc.toNat
  | .packBP sv ss dv ds col0 k0 nc kc =>
    packPackedCheck s s.csrNR.toNat sv.toNat ss.toNat dv.toNat ds.toNat col0.toNat nc.toNat
      k0.toNat kc.toNat
  | .tclr => .ok ()
  | .tld cbase row0 col0 => tileCheck s cbase.toNat row0.toNat col0.toNat
  | .tst cbase row0 col0 => tileCheck s cbase.toNat row0.toNat col0.toNat
  | .mkr a b kc => mkrCheck s a.toNat b.toNat kc.toNat
  | .mkp aVal aSgn bVal bSgn kc =>
    mkpCheck s aVal.toNat aSgn.toNat bVal.toNat bSgn.toNat kc.toNat
  | .dotrN w a b dst => dotrNCheck s w a.toNat b.toNat dst.toNat
  | .dotrS w a _ _ dst => dotrMaskCheck s w a.toNat dst.toNat
  | .dotrT w a _ _ dst => dotrMaskCheck s w a.toNat dst.toNat

/-- The effect of a command whose checks pass, its retirement aside. -/
def commandEffect (t : State) : Instr → State
  | .nop => t
  | .cfg idx val => t.writeCsr idx val
  | .zfill dst len => t.store (zfillWrites dst.toNat len.toNat)
  | .xposeC2R src dst rows cols =>
    t.store (xposeC2RWrites t src.toNat dst.toNat rows.toNat cols.toNat)
  | .xposeR2C src dst rows cols =>
    t.store (xposeR2CWrites t src.toNat dst.toNat rows.toNat cols.toNat)
  | .cmpr src dv ds len => t.store (cmprWrites t src.toNat dv.toNat ds.toNat len.toNat)
  | .packA src dst row0 k0 mc kc =>
    t.store (packAWrites t src.toNat dst.toNat row0.toNat k0.toNat mc.toNat kc.toNat)
  | .packAP sv ss dv ds row0 k0 mc kc =>
    t.store (packAPMaskWrites t sv.toNat dv.toNat row0.toNat k0.toNat mc.toNat kc.toNat
      ++ packAPMaskWrites t ss.toNat ds.toNat row0.toNat k0.toNat mc.toNat kc.toNat)
  | .packB src dst col0 k0 nc kc =>
    t.store (packBWrites t src.toNat dst.toNat col0.toNat k0.toNat nc.toNat kc.toNat)
  | .packBP sv ss dv ds col0 k0 nc kc =>
    t.store (packBPMaskWrites t sv.toNat dv.toNat col0.toNat k0.toNat nc.toNat kc.toNat
      ++ packBPMaskWrites t ss.toNat ds.toNat col0.toNat k0.toNat nc.toNat kc.toNat)
  | .tclr => t.clearAcc
  | .tld cbase row0 col0 =>
    t.setActive fun l j => t.read (tileAddr t cbase.toNat row0.toNat col0.toNat l j)
  | .tst cbase row0 col0 => t.store (tstWrites t cbase.toNat row0.toNat col0.toNat)
  | .mkr a b kc => t.setActive fun l j => mkrCell t a.toNat b.toNat kc.toNat l j
  | .mkp aVal aSgn bVal bSgn kc =>
    t.setActive fun l j =>
      mkpCell t aVal.toNat aSgn.toNat bVal.toNat bSgn.toNat kc.toNat l j
  | .dotrN w a b dst =>
    t.storeLanes w dst.toNat fun i => naiveLane (t.read (a.toNat + i)) (t.read (b.toNat + i))
  | .dotrS w a vmask smask dst =>
    t.storeLanes w dst.toNat fun i =>
      shiftedLane (t.read (a.toNat + i)) (laneBit w vmask i) (laneBit w smask i)
  | .dotrT w a vmask smask dst =>
    t.storeLanes w dst.toNat fun i =>
      bitTestLane (t.read (a.toNat + i)) (laneBit w vmask i) (laneBit w smask i)

/-- Every command is its check, then its effect. -/
theorem exec_eq_endCommand (i : Instr) (s : State) :
    exec i s = s.endCommand (commandCheck s i) (fun t => commandEffect t i) := by
  cases i <;>
    simp only [exec, commandCheck, commandEffect, execNop, execCfg, execZfill, execXposeC2R,
      execXposeR2C, execCmpr, execPackA, execPackAP, execPackB, execPackBP, execTclr, execTld,
      execTst, execMkr, execMkp, execDotrN, execDotrS, execDotrT]

/-- All a command can do: fault with STATUS alone written, or have its effect and retire. -/
theorem exec_cases (i : Instr) (s : State) :
    (∃ c, commandCheck s i = .error c ∧ exec i s = .next (s.raise c)) ∨
      (commandCheck s i = .ok () ∧ exec i s = .next (commandEffect s i).retire) := by
  rw [exec_eq_endCommand]
  exact s.endCommand_cases (commandCheck s i) fun t => commandEffect t i

/-- The effect of a command keeps STATUS, RETIRED, CMD and the fields no command writes. -/
theorem commandEffect_keeps (i : Instr) (t : State) :
    ((commandEffect t i).busy = t.busy ∧ (commandEffect t i).fault = t.fault ∧
      (commandEffect t i).herr = t.herr ∧ (commandEffect t i).cause = t.cause ∧
      (commandEffect t i).fopc = t.fopc ∧ (commandEffect t i).retired = t.retired) ∧
    (commandEffect t i).cmd = t.cmd ∧ (commandEffect t i).dmemSize = t.dmemSize ∧
    (commandEffect t i).srstPending = t.srstPending ∧ (commandEffect t i).host = t.host ∧
    (commandEffect t i).hostData = t.hostData ∧ (commandEffect t i).freeTick = t.freeTick := by
  cases i
  case cfg idx val =>
    simp only [commandEffect, State.writeCsr]
    split
    · simp
    split
    · simp
    split <;> simp
  all_goals simp [commandEffect]

/-- A sequence of checks fails with the first that fails. -/
theorem check_bind_eq_error {a k : Except Cause Unit} {c : Cause} :
    (a >>= fun _ => k) = .error c ↔ a = .error c ∨ (a = .ok () ∧ k = .error c) := by
  cases a <;> simp [bind, Except.bind]

theorem require_eq_error {ok : Bool} {c d : Cause} :
    require ok c = .error d ↔ ok = false ∧ c = d := by
  cases ok <;> simp [require]

end Sys2Proof.Machine
end

