-- ==== Sys2Proof/Laws/HostPort.lean ====
section
/-! SUPPORT. What a host read of the register port can do, said once (20_memory R62, R63), and
the fields of STATUS (10_state R26). -/

namespace Sys2Proof.Machine

/-- A field seen while BUSY = 1 is the one before the command or the one after it. -/
theorem State.seen_eq_or {α : Type} (s : State) (field : Nat) (before after : α) :
    s.seen field before after = before ∨ s.seen field before after = after := by
  unfold State.seen
  split
  · exact .inr rfl
  · exact .inl rfl

/-- The 'after' of a field seen while BUSY = 1, from the block's turn. -/
theorem State.afterCommand_eq {s t : State} (h : s.blockStep = .next t) : s.afterCommand = t := by
  simp [State.afterCommand, h]

/-- A well-formed register read while BUSY = 1: the datum of `readRegBusy`, one tick, no more. -/
theorem State.hostRegRead_busy {s : State} (h : s.busy = true) {off : Nat} (ho : off % 4 = 0) :
    s.hostRegRead .word off
      = { s with hostData := s.readRegBusy (regAt off), freeTick := s.freeTick + 1 } := by
  simp [State.hostRegRead, regAccessOk, ho, h, State.answer, State.tick]

/-- A well-formed register read while BUSY = 0: the datum of `readReg`, no more. -/
theorem State.hostRegRead_idle {s : State} (h : s.busy = false) {off : Nat} (ho : off % 4 = 0) :
    s.hostRegRead .word off = { s with hostData := s.readReg (regAt off) } := by
  simp [State.hostRegRead, regAccessOk, ho, h, State.answer]

/-- A CTRL write without GO and SRST changes nothing (10_state R29). -/
theorem State.writeCtrl_none {s : State} {v : Word} (hgo : v.getLsbD 0 = false)
    (hsrst : v.getLsbD 1 = false) : s.writeCtrl v = s := by
  unfold State.writeCtrl
  rw [hgo, hsrst]
  rfl

/-- A bit of STATUS, by the field it lies in (10_state R26). -/
theorem packStatus_getLsbD (fopc cause : Byte) (herr fault busy : Bool) (i : Nat) :
    (packStatus fopc cause herr fault busy).getLsbD i =
      if i < 8 then (i == 0 && busy || i == 1 && fault || i == 2 && herr)
      else if i < 16 then cause.getLsbD (i - 8)
      else if i < 24 then fopc.getLsbD (i - 16)
      else false := by
  have low : ∀ (h f b : Bool), ∀ j < 8,
      (((0#5 ++ BitVec.ofBool h) ++ BitVec.ofBool f) ++ BitVec.ofBool b : Byte).getLsbD j
        = (j == 0 && b || j == 1 && f || j == 2 && h) := by decide
  unfold packStatus
  rw [show ∀ (x : BitVec 24) (y : Byte), BitVec.getLsbD (w := 32) (x ++ y) i
      = BitVec.getLsbD (w := 24 + 8) (x ++ y) i from fun _ _ => rfl, BitVec.getLsbD_append]
  split
  · exact low herr fault busy i ‹_›
  rw [show ∀ (x : BitVec 16) (y : Byte), BitVec.getLsbD (w := 24) (x ++ y) (i - 8)
      = BitVec.getLsbD (w := 16 + 8) (x ++ y) (i - 8) from fun _ _ => rfl, BitVec.getLsbD_append,
    show ∀ (x y : Byte), BitVec.getLsbD (w := 16) (x ++ y) (i - 8 - 8)
      = BitVec.getLsbD (w := 8 + 8) (x ++ y) (i - 8 - 8) from fun _ _ => rfl, BitVec.getLsbD_append]
  simp only [BitVec.getLsbD_zero, show i - 8 < 8 ↔ i < 16 by omega,
    show i - 8 - 8 = i - 16 by omega, show i - 16 < 8 ↔ i < 24 by omega]

/-- STATUS read field by field (10_state R26). -/
theorem packStatus_fields (fopc cause : Byte) (herr fault busy : Bool) :
    (packStatus fopc cause herr fault busy).getLsbD 0 = busy ∧
    (packStatus fopc cause herr fault busy).getLsbD 1 = fault ∧
    (packStatus fopc cause herr fault busy).getLsbD 2 = herr ∧
    (packStatus fopc cause herr fault busy).extractLsb' 3 5 = 0#5 ∧
    (packStatus fopc cause herr fault busy).extractLsb' 8 8 = cause ∧
    (packStatus fopc cause herr fault busy).extractLsb' 16 8 = fopc ∧
    (packStatus fopc cause herr fault busy).extractLsb' 24 8 = 0#8 := by
  have field : ∀ (start n : Nat) (x : BitVec n), (∀ i < n,
      (packStatus fopc cause herr fault busy).getLsbD (start + i) = x.getLsbD i) →
      (packStatus fopc cause herr fault busy).extractLsb' start n = x := by
    intro start n x h
    apply BitVec.eq_of_getLsbD_eq
    intro i hi
    rw [BitVec.getLsbD_extractLsb', h i hi]
    simp [hi]
  refine ⟨by rw [packStatus_getLsbD]; simp, by rw [packStatus_getLsbD]; simp,
    by rw [packStatus_getLsbD]; simp, field _ _ _ ?_, field _ _ _ ?_, field _ _ _ ?_,
    field _ _ _ ?_⟩ <;> intro i hi <;> rw [packStatus_getLsbD]
  · rw [if_pos (by omega)]
    simp
    omega
  · rw [if_neg (by omega), if_pos (by omega), show 8 + i - 8 = i by omega]
  · rw [if_neg (by omega), if_neg (by omega), if_pos (by omega), show 16 + i - 16 = i by omega]
  · rw [if_neg (by omega), if_neg (by omega), if_neg (by omega)]
    simp

end Sys2Proof.Machine
end

