-- ==== Sys2Proof/Laws/PerInstr.lean ====
section
/-! SUPPORT. Facts about every command as syntax, one lemma per constructor of `Instr`. -/

namespace Sys2Proof.Laws.ControlDecodes

/-- The control word a command encodes to names the command (30_encoding R76). -/
def Statement (i : Instr) : Prop := decodeControl (encode i)[0] = .ok i.mnemonic

theorem nop : Statement .nop :=
  (by decide : decodeControl 0x00#32 = .ok .nop)
theorem cfg (idx val : Word) : Statement (.cfg idx val) :=
  (by decide : decodeControl 0x01#32 = .ok .cfg)
theorem zfill (dst len : Word) : Statement (.zfill dst len) :=
  (by decide : decodeControl 0x02#32 = .ok .zfill)
theorem xposeC2R (src dst rows cols : Word) : Statement (.xposeC2R src dst rows cols) :=
  (by decide : decodeControl 0x010#32 = .ok .xposeC2R)
theorem xposeR2C (src dst rows cols : Word) : Statement (.xposeR2C src dst rows cols) :=
  (by decide : decodeControl 0x110#32 = .ok .xposeR2C)
theorem cmpr (src dv ds len : Word) : Statement (.cmpr src dv ds len) :=
  (by decide : decodeControl 0x11#32 = .ok .cmpr)
theorem packA (src dst : Word) (row0 k0 mc kc : Half) :
    Statement (.packA src dst row0 k0 mc kc) :=
  (by decide : decodeControl 0x020#32 = .ok .packA)
theorem packAP (sv ss dv ds : Word) (row0 k0 mc kc : Half) :
    Statement (.packAP sv ss dv ds row0 k0 mc kc) :=
  (by decide : decodeControl 0x120#32 = .ok .packAP)
theorem packB (src dst : Word) (col0 k0 nc kc : Half) :
    Statement (.packB src dst col0 k0 nc kc) :=
  (by decide : decodeControl 0x021#32 = .ok .packB)
theorem packBP (sv ss dv ds : Word) (col0 k0 nc kc : Half) :
    Statement (.packBP sv ss dv ds col0 k0 nc kc) :=
  (by decide : decodeControl 0x121#32 = .ok .packBP)
theorem tclr : Statement .tclr :=
  (by decide : decodeControl 0x30#32 = .ok .tclr)
theorem tld (cbase : Word) (row0 col0 : Half) : Statement (.tld cbase row0 col0) :=
  (by decide : decodeControl 0x31#32 = .ok .tld)
theorem tst (cbase : Word) (row0 col0 : Half) : Statement (.tst cbase row0 col0) :=
  (by decide : decodeControl 0x32#32 = .ok .tst)
theorem mkr (a b kc : Word) : Statement (.mkr a b kc) :=
  (by decide : decodeControl 0x40#32 = .ok .mkr)
theorem mkp (aVal aSgn bVal bSgn kc : Word) : Statement (.mkp aVal aSgn bVal bSgn kc) :=
  (by decide : decodeControl 0x41#32 = .ok .mkp)
theorem dotrN (w : Lanes) (a b dst : Word) : Statement (.dotrN w a b dst) := by
  show decodeControl (dotrWord w 0#2) = .ok .dotrN
  cases w <;> decide
theorem dotrS (w : Lanes) (a : Word) (vmask smask : Half) (dst : Word) :
    Statement (.dotrS w a vmask smask dst) := by
  show decodeControl (dotrWord w 1#2) = .ok .dotrS
  cases w <;> decide
theorem dotrT (w : Lanes) (a : Word) (vmask smask : Half) (dst : Word) :
    Statement (.dotrT w a vmask smask dst) := by
  show decodeControl (dotrWord w 2#2) = .ok .dotrT
  cases w <;> decide

end Sys2Proof.Laws.ControlDecodes
end

