-- ==== Sys2Proof/Tests/Slice0.lean ====
section
/-! SUPPORT. Tests: the words of the spec decode to their commands, the vectors of
95_test_vectors on small states, and for every statement with hypotheses a state and operands that
meet them. Every expected value is the spec's. -/

namespace Sys2Proof.Tests

open Sys2Proof.Machine

/-! ### Well-formedness (45_rowdot R212): mask bits above W-1 are no part of a command -/

theorem test_wellFormed_refuses_wide_vmask :
    (Instr.dotrS .w8 0 0x100 0x0F 0x20).wellFormed = false := by decide
theorem test_wellFormed_refuses_wide_smask :
    (Instr.dotrT .w8 0 0x0F 0x100 0x20).wellFormed = false := by decide
theorem test_wellFormed_admits_sixteen_lanes :
    (Instr.dotrS .w16 0 0xFBFB 0xF2F2 0x30).wellFormed = true := by decide

/-! ### Decoding (30_encoding R76, R85; the words of 95_test_vectors part 3) -/

theorem test_decode_nop : decode (Vector.replicate 8 0) = .ok .nop := by decide
theorem test_decode_cfg : decode #v[0x00000001#32, 0x00000001#32, 0x00000008#32, 0, 0, 0, 0, 0]
    = .ok (.cfg 1 8) := by decide
theorem test_decode_zfill : decode #v[0x00000002#32, 0x00000200#32, 0x00000100#32, 0, 0, 0, 0, 0]
    = .ok (.zfill 0x200 256) := by decide
theorem test_decode_xposeC2R :
    decode #v[0x00000010#32, 0x00000000#32, 0x00000300#32, 0x00000010#32, 0x00000002#32, 0, 0, 0]
    = .ok (.xposeC2R 0 0x300 16 2) := by decide
theorem test_decode_xposeR2C :
    decode #v[0x00000110#32, 0x00000400#32, 0x00000440#32, 0x00000010#32, 0x00000002#32, 0, 0, 0]
    = .ok (.xposeR2C 0x400 0x440 16 2) := by decide
theorem test_decode_cmpr :
    decode #v[0x00000011#32, 0x00000100#32, 0x00000480#32, 0x000004A0#32, 0x00000100#32, 0, 0, 0]
    = .ok (.cmpr 0x100 0x480 0x4A0 256) := by decide
theorem test_decode_packA :
    decode #v[0x00000020#32, 0x00000000#32, 0, 0x00000400#32, 0, 0x00020008#32, 0x00030010#32, 0]
    = .ok (.packA 0 0x400 8 2 16 3) := by decide
theorem test_decode_packAP :
    decode #v[0x00000120#32, 0x00000440#32, 0x00000460#32, 0x00000500#32, 0x00000520#32,
      0x00080000#32, 0x00080010#32, 0] = .ok (.packAP 0x440 0x460 0x500 0x520 0 8 16 8) := by
  decide
theorem test_decode_packB :
    decode #v[0x00000021#32, 0x00000100#32, 0, 0x00000380#32, 0, 0x00080000#32, 0x00080010#32, 0]
    = .ok (.packB 0x100 0x380 0 8 16 8) := by decide
theorem test_decode_packBP :
    decode #v[0x00000121#32, 0x00000480#32, 0x000004A0#32, 0x00000540#32, 0x00000560#32,
      0x00000008#32, 0x00100008#32, 0] = .ok (.packBP 0x480 0x4A0 0x540 0x560 8 0 8 16) := by
  decide
theorem test_decode_tclr : decode #v[0x00000030#32, 0, 0, 0, 0, 0, 0, 0] = .ok .tclr := by decide
theorem test_decode_tld : decode #v[0x00000031#32, 0x00000100#32, 0x00000008#32, 0, 0, 0, 0, 0]
    = .ok (.tld 0x100 8 0) := by decide
theorem test_decode_tst : decode #v[0x00000032#32, 0x00000100#32, 0x00080000#32, 0, 0, 0, 0, 0]
    = .ok (.tst 0x100 0 8) := by decide
theorem test_decode_mkr :
    decode #v[0x00000040#32, 0x00000300#32, 0x000003C0#32, 0x00000008#32, 0, 0, 0, 0]
    = .ok (.mkr 0x300 0x3C0 8) := by decide
theorem test_decode_mkp :
    decode #v[0x00000041#32, 0x00000510#32, 0x00000530#32, 0x00000550#32, 0x00000570#32,
      0x00000010#32, 0, 0] = .ok (.mkp 0x510 0x530 0x550 0x570 16) := by decide
theorem test_decode_dotrN :
    decode #v[0x00000150#32, 0x00000000#32, 0x00000010#32, 0, 0, 0x00000020#32, 0, 0]
    = .ok (.dotrN .w16 0 0x10 0x20) := by decide
theorem test_decode_dotrS :
    decode #v[0x00000350#32, 0x00000000#32, 0, 0x0000FBFB#32, 0x0000F2F2#32, 0x00000030#32, 0, 0]
    = .ok (.dotrS .w16 0 0xFBFB 0xF2F2 0x30) := by decide
theorem test_decode_dotrT :
    decode #v[0x00000450#32, 0x00000000#32, 0, 0x000000FB#32, 0x000000F2#32, 0x00000050#32, 0, 0]
    = .ok (.dotrT .w8 0 0xFB 0xF2 0x50) := by decide

/-- DR-8: mask bits above W-1 are ignored. -/
theorem test_decode_ignores_upper_mask_bits :
    decode #v[0x00000250#32, 0, 0, 0xFFFFFF80#32, 0xFFFFFF00#32, 0x20#32, 0, 0]
    = .ok (.dotrS .w8 0 0x80 0x00 0x20) := by decide

/-- DEC-2 to DEC-7, DEC-8 to DEC-11. -/
theorem test_decode_rejects :
    [0x00000003#32, 0x000000FF#32, 0x00000042#32, 0x00010003#32].map decodeControl
      = List.replicate 4 (.error .illegalOpcode) ∧
    [0x00000100#32, 0x00010000#32, 0x00000210#32, 0x00000850#32, 0x00000650#32,
      0x00000750#32].map decodeControl = List.replicate 6 (.error .reservedEnc) := by decide

/-- No word lies in two rows of the opcode map. -/
theorem test_opcodeMap_rows_disjoint :
    opcodeMap.Pairwise fun r r' => r.pattern &&& r'.mask ≠ r'.pattern &&& r.mask := by decide

/-! ### Small states -/

/-- A block after power-on with these bytes and these configuration registers. -/
def block (size : Nat) (bytes : Memory) (n : Half) (mr nr : BitVec 5) : State :=
  { State.powerOn size bytes [] with csrN := n, csrMR := mr, csrNR := nr }

/-- The next state of a step, or the state where there is none. -/
def after (s : State) (o : Host.Outcome State Fault Refusal) : State :=
  match o with
  | .next t => t
  | .fault _ => s
  | .refused _ => s

/-- The state after a command. -/
def ran (i : Instr) (s : State) : State := after s (exec i s)

/-- The bytes from `a` on. -/
def bytesAt (s : State) (a n : Nat) : List Byte := (List.range n).map fun i => s.read (a + i)

/-- The bytes at some addresses. -/
def readsOf (s : State) (addrs : List Nat) : List Byte := addrs.map s.read

/-- Some cells of ACC. -/
def cellsOf (s : State) (cells : List (Nat × Nat)) : List Byte :=
  cells.map fun c => s.accCell c.1 c.2

/-! ### Control (95_test_vectors §2.1) -/

theorem test_nop_from_reset : (ran .nop State.reset).retired = 1 := by decide
theorem test_cfg_1 : (ran (.cfg 0 16) State.reset).csrN = 16 := by decide
theorem test_cfg_7 : (ran (.cfg 0 65536) { State.reset with cmd := encode (.cfg 0 65536) }).status
    = 0x00010402#32 := by decide
theorem test_zfill_1 : bytesAt (ran (.zfill 2 2)
    (block 16 [(1, 0x77), (2, 0x77), (3, 0x77), (4, 0x77)] 0 0 0)) 1 4 = [0x77, 0, 0, 0x77] := by
  decide
theorem test_zfill_4 : (ran (.zfill 0xFFFFFFFF 2)
    { State.reset with cmd := encode (.zfill 0xFFFFFFFF 2) }).status = 0x00020702#32 := by decide

/-! ### Codec (95_test_vectors §2.2) -/

/-- The bytes of XP-1. -/
def xp1 : State := block 64 [(0, 1), (1, 4), (2, 2), (3, 5), (4, 3), (5, 6)] 0 0 0

theorem test_xposeC2R_1 :
    bytesAt (ran (.xposeC2R 0x00 0x10 2 3) xp1) 0x10 6 = [1, 2, 3, 4, 5, 6] := by decide
theorem test_xposeR2C_2 : bytesAt (ran (.xposeR2C 0x10 0x20 2 3) (ran (.xposeC2R 0x00 0x10 2 3) xp1))
    0x20 6 = [1, 4, 2, 5, 3, 6] := by decide
theorem test_xposeC2R_overlap : (ran (.xposeC2R 0 4 2 3)
    { xp1 with cmd := encode (.xposeC2R 0 4 2 3) }).status = 0x00100802#32 := by decide

/-- The bytes of CM-1. -/
def cm1 : State :=
  block 128 [(0, 0x01), (1, 0xFF), (4, 0x01), (5, 0x01), (6, 0xFF)] 0 0 0

theorem test_cmpr_1 : (ran (.cmpr 0x00 0x40 0x48 8) cm1).read 0x40 = 0x73 ∧
    (ran (.cmpr 0x00 0x40 0x48 8) cm1).read 0x48 = 0x42 := by decide
theorem test_cmpr_6 : (ran (.cmpr 0x00 0x40 0x48 8)
    { block 128 [(0, 0x01), (1, 0xFF), (2, 0x02)] 0 0 0 with
      cmd := encode (.cmpr 0x00 0x40 0x48 8) }).status = 0x00110902#32 := by decide

/-! ### Packer (95_test_vectors §2.3), with the source bytes the tile touches -/

theorem test_packA_1 : bytesAt (ran (.packA 0x000 0x400 8 2 8 2)
    (block 4096 [(40, 40), (41, 41), (47, 47), (56, 56), (63, 63)] 16 8 8)) 0x400 16
    = [40, 41, 0, 0, 0, 0, 0, 47, 56, 0, 0, 0, 0, 0, 0, 63] := by decide
theorem test_packA_11 : (ran (.packA 0 0x400 0 0 8 8)
    { block 4096 [] 12 8 8 with cmd := encode (.packA 0 0x400 0 0 8 8) }).status
    = 0x00200502#32 := by decide
theorem test_packB_2 : bytesAt (ran (.packB 0x000 0x500 8 2 8 2)
    (block 4096 [(130, 130), (131, 131), (146, 146), (242, 242), (243, 243)] 16 8 8)) 0x500 16
    = [130, 146, 0, 0, 0, 0, 0, 242, 131, 0, 0, 0, 0, 0, 0, 243] := by decide
theorem test_packAP_3 : readsOf (ran (.packAP 0x600 0x700 0x800 0x900 0 8 16 8)
      (block 4096 [(0x610, 0x10), (0x61F, 0x1F), (0x710, 0x90), (0x718, 0x98)] 16 8 8))
    [0x800, 0x80F, 0x900, 0x908] = [0x10, 0x1F, 0x90, 0x98] := by
  decide
theorem test_packBP_4 : readsOf (ran (.packBP 0x600 0x700 0x800 0x900 8 0 8 16)
      (block 4096 [(0x610, 0x10), (0x611, 0x11), (0x712, 0x92), (0x71F, 0x9F)] 16 8 8))
    [0x800, 0x808, 0x901, 0x90F] = [0x10, 0x11, 0x92, 0x9F] := by
  decide

/-! ### Accumulator (95_test_vectors §2.4) -/

/-- Some bytes of AC-2's C: C[8, 0..1], C[15, 0], C[9, 1]. -/
def ac2 : State := block 4096 [(0x108, 8), (0x10F, 15), (0x118, 7), (0x119, 8)] 16 8 8

theorem test_tld_2 : cellsOf (ran (.tld 0x100 8 0) ac2)
    [(0, 0), (0, 1), (7, 0), (8, 0)] = [8, 7, 15, 0] := by decide
theorem test_tst_3 : readsOf (ran (.tst 0x100 0 8) (ran (.tld 0x100 8 0) ac2))
    [0x180, 0x191, 0x108] = [8, 8, 8] := by decide
theorem test_tclr_1 : (ran .tclr (ran (.tld 0x100 8 0) ac2)).accCell 0 0 = 0 := by decide
theorem test_tld_7 : (ran (.tld 0 9 0)
    { block 4096 [] 16 8 8 with cmd := encode (.tld 0 9 0) }).status = 0x00310602#32 := by decide

/-! ### Micro-kernel (95_test_vectors §2.5, §2.6) -/

theorem test_mkr_2_4 : cellsOf (ran (.mkr 0 0x10 1)
      (block 4096 [(0, 127), (1, 0x80), (0x10, 127), (0x11, 0xFF)] 16 8 8))
    [(0, 0), (1, 0), (1, 1), (0, 1)] = [1, 0x80, 0x80, 0x81] := by decide
theorem test_mkr_9 : (ran (.mkr 0 0 0) { State.reset with cmd := encode (.mkr 0 0 0) }).status
    = 0x00400302#32 := by decide
theorem test_mkp_1_2 : cellsOf (ran (.mkp 0 0x10 0x20 0x30 8)
      (block 4096 [(0, 0x73), (0x10, 0x42), (0x20, 0xFF), (0x21, 0xFF), (0x31, 0xFF)] 16 8 8))
    [(0, 0), (0, 1)] = [1, 0xFF] := by decide
theorem test_mkp_11 : (ran (.mkp 0 0 0 0 12)
    { block 4096 [] 16 8 8 with cmd := encode (.mkp 0 0 0 0 12) }).status = 0x00410502#32 := by
  decide

/-! ### Single-row dot (95_test_vectors §2.7) -/

/-- The bytes of DR-5. -/
def dr5 : State := block 4096
  [(0, 0x80), (1, 0x80), (2, 0x7F), (3, 5), (4, 9), (5, 9), (6, 9), (7, 9)] 0 0 0

theorem test_dotrN_10 : (ran (.dotrN .w8 0 0 0x20) (block 256
    [(0, 0x80), (1, 0xFF), (2, 2), (3, 3), (5, 1), (6, 0x7F), (7, 0x10)] 0 0 0)).dotres
    = 0x10 := by decide
theorem test_dotrS_5 : bytesAt (ran (.dotrS .w8 0 0xF0 0xC0 0x20) dr5) 0x20 8
    = [0x80, 0x80, 0x7F, 5, 0, 0, 0, 0] ∧ (ran (.dotrS .w8 0 0xF0 0xC0 0x20) dr5).dotres = 0x84 := by
  decide
theorem test_dotrT_7 : bytesAt (ran (.dotrT .w8 0 0x0F 0xFF 0x30) dr5) 0x30 8
    = [0, 0, 0, 0, 0xF7, 0xF7, 0xF7, 0xF7] ∧
    (ran (.dotrT .w8 0 0x0F 0xFF 0x30) dr5).dotres = 0xDC := by decide

/-! ### Faults, HERR and reset (95_test_vectors §2.8) -/

/-- A state after DEC-2. -/
def dec2 : State := { State.reset with fault := true, cause := 0x01, fopc := 0x03 }

theorem test_step_faults_dec2 :
    (after State.reset (step (State.reset.withFetchWord 32 0x00000003))).status
      = 0x00030102#32 := by decide
theorem test_fl_1 : (dec2.hostAccess (.regWrite .word 0x004 1)).status = 0x00030106#32 := by decide
theorem test_fl_3 : (dec2.hostAccess (.regWrite .word 0x004 2)).status = 0#32 := by decide
theorem test_fl_12 : State.reset.hostAccess (.regWrite .word 0x004 3) = State.reset := by decide
theorem test_fl_13 : bytesAt (State.reset.hostAccess (.dmemWrite .word 0 0x11223344)) 0 4
    = [0x44, 0x33, 0x22, 0x11] := by decide
theorem test_fl_7 : (State.reset.hostAccess (.dmemWrite .half 1 5)).status = 0x00000004#32 := by
  decide
theorem test_fl_14 : (State.reset.hostAccess (.regRead .word 0)).hostData = 0x54425043#32 := by
  decide
theorem test_reset_memory_canonical : Memory.wf State.reset.dmem = true := by decide

/-- Every row's command runs as the first instruction after reset (30_encoding R76). -/
theorem test_rows_decode :
    [0x00, 0x01, 0x02, 0x10, 0x110, 0x11, 0x20, 0x120, 0x21, 0x121, 0x30, 0x31, 0x32, 0x40, 0x41,
      0x50, 0x250, 0x450].map (fun w => (decodeTableWord 32 w).map Instr.mnemonic) =
    [.nop, .cfg, .zfill, .xposeC2R, .xposeR2C, .cmpr, .packA, .packAP, .packB, .packBP, .tclr,
      .tld, .tst, .mkr, .mkp, .dotrN, .dotrS, .dotrT].map some := by decide

/-! ### Witnesses: for each statement with hypotheses, a state and operands that meet them, at the
boundary of each range -/

/-- A small state whose next step runs the command of a word with operand words 0. -/
def placed (w : Nat) : State := (block 64 [(3, 1)] 16 8 8).withFetchWord 32 w

/-- A state whose next step runs this command. -/
def started (i : Instr) (s : State) : State := { s with cmd := encode i, busy := true }

theorem witness_StepRunsDecodedCommand :
    ∃ (s t : State) (i : Instr), s.hostWaits = true ∧ s.busy = true ∧ decode s.cmd = .ok i ∧
      exec i s.turnTaken = .next t ∧ t.srstPending = false :=
  ⟨placed 0x30, ran .tclr (placed 0x30).turnTaken, .tclr, by decide, by decide, by decide, rfl,
    by decide⟩
theorem witness_StepRunsDecodedCommand_reset :
    ∃ (s t : State) (i : Instr), s.hostWaits = true ∧ s.busy = true ∧ decode s.cmd = .ok i ∧
      exec i s.turnTaken = .next t ∧ t.srstPending = true :=
  ⟨{ placed 0 with srstPending := true, host := [.yield] },
    ran .nop ({ placed 0 with srstPending := true, host := [.yield] } : State).turnTaken, .nop,
    by decide, by decide, by decide, rfl, by decide⟩
theorem witness_PlacedCommandRunsNext : State.reset.srstPending = false ∧
    decodeTableWord 32 0x30 = some .tclr := by decide
theorem witness_HostAccessOrIdleTurnIsOneStep :
    (State.powerOn 4 [] [.access .hardReset]).host.head? = some (.access .hardReset) ∧
    (State.powerOn 4 [] [.yield]).hostWaits = true ∧ (State.powerOn 4 [] [.yield]).busy = false ∧
    (State.powerOn 4 [] []).hostWaits = true ∧ (State.powerOn 4 [] []).busy = false := by decide
theorem witness_DecodeOfEncodeIsTheCommand :
    (Instr.dotrT .w8 0xFFFFFFFF 0xFF 0x80 0x20).wellFormed = true ∧
    (Instr.packA 0xFFFFFFFF 0 0xFFFF 0 0xFFFF 1).wellFormed = true := by decide
theorem witness_DecodedCommandIsItsDescriptor :
    decode #v[0x00000250#32, 0, 7, 0xFFFFFF80#32, 0xFFFFFF00#32, 0x20#32, 0, 9]
      = .ok (.dotrS .w8 0 0x80 0x00 0x20) ∧
    decode #v[0x00000550#32, 0, 7, 0xFFFFFF80#32, 0xFFFFFF00#32, 0x20#32, 0, 9]
      = .ok (.dotrT .w16 0 0xFF80 0xFF00 0x20) ∧
    decode #v[0x00000002#32, 0xFFFFFFFF#32, 1, 5, 0, 0, 0, 9]
      = .ok (.zfill 0xFFFFFFFF 1) := by decide
theorem witness_ControlWordDecodesToItsRow :
    decodeControl 0x00000550#32 = .ok .dotrT ∧
    ∃ r ∈ opcodeMap, 0x00000550#32 &&& r.mask = r.pattern ∧ r.mnemonic = .dotrT := by decide
theorem witness_UndefinedOpcodeIsIllegal :
    (placed 0xFFFFFF51).cmd[0].extractLsb' 0 8 ∉ ([0x00#8, 0x01#8, 0x02#8, 0x10#8, 0x11#8, 0x20#8,
      0x21#8, 0x30#8, 0x31#8, 0x32#8, 0x40#8, 0x41#8, 0x50#8] : List Byte) := by decide
theorem witness_ReservedEncodingsFault :
    [0x00010000, 0x80000000, 0x00000810, 0x00000200, 0x00000100, 0x00000650].map
      (fun w => decodeControl (placed w).cmd[0]) = List.replicate 6 (.error .reservedEnc) := by
  decide
theorem witness_IgnoredWordsHaveNoEffect :
    ∃ (d e : Descriptor) (m : Mnemonic), decodeControl d[0] = .ok m ∧ d[0] = e[0] ∧
      (∀ k ∈ usedWords m, d[k] = e[k]) ∧ d ≠ e :=
  ⟨#v[0x20#32, 1, 2, 3, 4, 5, 6, 7], #v[0x20#32, 1, 0, 3, 9, 5, 6, 8], .packA, by decide⟩

theorem witness_CfgWritesOneRegister_dimension :
    (1 ≤ (1#32).toNat ∧ (1#32).toNat ≤ 65535) ∧
    1 ≤ (65535#32).toNat ∧ (65535#32).toNat ≤ 65535 := by decide
theorem witness_CfgWritesOneRegister_tile :
    ∃ idx val : Word, (idx = 1 ∨ idx = 2) ∧ (val = 8 ∨ val = 16) := ⟨1, 16, by decide⟩
theorem witness_CfgWritesOneRegister_illegal :
    ¬(((0#32) = 0 ∧ 1 ≤ (65536#32).toNat ∧ (65536#32).toNat ≤ 65535) ∨
      (((0#32) = 1 ∨ (0#32) = 2) ∧ (65536#32 = 8 ∨ 65536#32 = 16))) ∧
    ¬(((3#32) = 0 ∧ 1 ≤ (8#32).toNat ∧ (8#32).toNat ≤ 65535) ∨
      (((3#32) = 1 ∨ (3#32) = 2) ∧ (8#32 = 8 ∨ 8#32 = 16))) := by decide
theorem witness_ZfillZeroesItsRegion :
    Memory.wf (block 16 [(15, 1)] 0 0 0).dmem = true ∧
    (14#32).toNat + (2#32).toNat ≤ (block 16 [(15, 1)] 0 0 0).dmemSize ∧
    (0#32).toNat = 0 := by decide

theorem witness_XposeC2RReordersToRowMajor :
    Memory.wf xp1.dmem = true ∧
    inDmem xp1.dmemSize (0#32).toNat ((2#32).toNat * (3#32).toNat) = true ∧
    inDmem xp1.dmemSize (0x3A#32).toNat ((2#32).toNat * (3#32).toNat) = true ∧
    overlaps (0#32).toNat ((2#32).toNat * (3#32).toNat) (0x3A#32).toNat
      ((2#32).toNat * (3#32).toNat) = false := by decide
theorem witness_XposeR2CReordersToColumnMajor :
    Memory.wf xp1.dmem = true ∧
    inDmem xp1.dmemSize (0#32).toNat ((2#32).toNat * (3#32).toNat) = true ∧
    inDmem xp1.dmemSize (6#32).toNat ((2#32).toNat * (3#32).toNat) = true ∧
    overlaps (0#32).toNat ((2#32).toNat * (3#32).toNat) (6#32).toNat
      ((2#32).toNat * (3#32).toNat) = false := by decide
theorem witness_XposeR2CUndoesXposeC2R :
    ∃ s t u : State, Memory.wf s.dmem = true ∧
      exec (.xposeC2R 0x00 0x10 2 3) s = .next t ∧ t.retired = s.retired + 1 ∧
      exec (.xposeR2C 0x10 0x20 2 3) t = .next u ∧ u.retired = t.retired + 1 :=
  ⟨xp1, ran (.xposeC2R 0x00 0x10 2 3) xp1,
    ran (.xposeR2C 0x10 0x20 2 3) (ran (.xposeC2R 0x00 0x10 2 3) xp1),
    by decide, rfl, by decide, rfl, by decide⟩
theorem witness_CmprWritesValueAndSignMasks :
    Memory.wf cm1.dmem = true ∧ (8#32).toNat % 8 = 0 ∧
    inDmem cm1.dmemSize (0#32).toNat (8#32).toNat = true ∧
    inDmem cm1.dmemSize (8#32).toNat ((8#32).toNat / 8) = true ∧
    inDmem cm1.dmemSize (127#32).toNat ((8#32).toNat / 8) = true ∧
    overlaps (0#32).toNat (8#32).toNat (8#32).toNat ((8#32).toNat / 8) = false ∧
    overlaps (0#32).toNat (8#32).toNat (127#32).toNat ((8#32).toNat / 8) = false ∧
    overlaps (8#32).toNat ((8#32).toNat / 8) (127#32).toNat ((8#32).toNat / 8) = false ∧
    (∀ x, x < (8#32).toNat → cm1.read ((0#32).toNat + x) = 0x00#8 ∨
      cm1.read ((0#32).toNat + x) = 0x01#8 ∨ cm1.read ((0#32).toNat + x) = 0xFF#8) := by decide
theorem witness_CompressionIsExact :
    ∃ s t : State, Memory.wf s.dmem = true ∧ exec (.cmpr 0x00 0x40 0x48 8) s = .next t ∧
      t.retired = s.retired + 1 :=
  ⟨cm1, ran (.cmpr 0x00 0x40 0x48 8) cm1, by decide, rfl, by decide⟩

/-- A state for the packs: N = 16, tile widths 8. -/
def packing : State := block 4096 [(0x110, 1), (0x210, 0xFF)] 16 8 8

theorem witness_PackAStagesRowPanels :
    Memory.wf packing.dmem = true ∧
    packing.csrN ≠ 0 ∧ packing.csrMR ≠ 0 ∧ packing.csrNR ≠ 0 ∧
    packing.csrN.toNat % packing.csrMR.toNat = 0 ∧
    packing.csrN.toNat % packing.csrNR.toNat = 0 ∧
    (8#16).toNat % packing.csrMR.toNat = 0 ∧
    (8#16).toNat + (8#16).toNat ≤ packing.csrN.toNat ∧
    (13#16).toNat + (3#16).toNat ≤ packing.csrN.toNat ∧
    inDmem packing.dmemSize (0#32).toNat (packing.csrN.toNat * packing.csrN.toNat) = true ∧
    inDmem packing.dmemSize (4072#32).toNat ((8#16).toNat * (3#16).toNat) = true ∧
    overlaps (4072#32).toNat ((8#16).toNat * (3#16).toNat) (0#32).toNat
      (packing.csrN.toNat * packing.csrN.toNat) = false := by decide
theorem witness_PackBStagesColumnPanels :
    Memory.wf packing.dmem = true ∧
    packing.csrN ≠ 0 ∧ packing.csrMR ≠ 0 ∧ packing.csrNR ≠ 0 ∧
    packing.csrN.toNat % packing.csrMR.toNat = 0 ∧
    packing.csrN.toNat % packing.csrNR.toNat = 0 ∧
    (16#16).toNat % packing.csrNR.toNat = 0 ∧
    (0#16).toNat + (16#16).toNat ≤ packing.csrN.toNat ∧
    (15#16).toNat + (1#16).toNat ≤ packing.csrN.toNat ∧
    inDmem packing.dmemSize (256#32).toNat (packing.csrN.toNat * packing.csrN.toNat) = true ∧
    inDmem packing.dmemSize (240#32).toNat ((16#16).toNat * (1#16).toNat) = true ∧
    overlaps (240#32).toNat ((16#16).toNat * (1#16).toNat) (256#32).toNat
      (packing.csrN.toNat * packing.csrN.toNat) = false := by decide
theorem witness_PackAPackedStagesBothMasks :
    Memory.wf packing.dmem = true ∧
    packing.csrN ≠ 0 ∧ packing.csrMR ≠ 0 ∧ packing.csrNR ≠ 0 ∧
    packing.csrN.toNat % packing.csrMR.toNat = 0 ∧
    packing.csrN.toNat % packing.csrNR.toNat = 0 ∧
    (8#16).toNat % packing.csrMR.toNat = 0 ∧ (8#16).toNat % 8 = 0 ∧
    (8#16).toNat + (8#16).toNat ≤ packing.csrN.toNat ∧
    inDmem packing.dmemSize (0x100#32).toNat
      (packing.csrN.toNat * packing.csrN.toNat / 8) = true ∧
    inDmem packing.dmemSize (0x200#32).toNat
      (packing.csrN.toNat * packing.csrN.toNat / 8) = true ∧
    inDmem packing.dmemSize (0x300#32).toNat ((8#16).toNat * ((8#16).toNat / 8)) = true ∧
    inDmem packing.dmemSize (4088#32).toNat ((8#16).toNat * ((8#16).toNat / 8)) = true ∧
    (∀ d ∈ [0x300#32, 4088#32], ∀ x ∈ [0x100#32, 0x200#32], overlaps d.toNat
      ((8#16).toNat * ((8#16).toNat / 8)) x.toNat
      (packing.csrN.toNat * packing.csrN.toNat / 8) = false) ∧
    overlaps (0x300#32).toNat ((8#16).toNat * ((8#16).toNat / 8)) (4088#32).toNat
      ((8#16).toNat * ((8#16).toNat / 8)) = false := by
  refine ⟨by decide, by decide, by decide, by decide, by decide, by decide, by decide, by decide,
    by decide,
    by decide, by decide, by decide, by decide, ?_, by decide⟩
  intro d hd x hx
  rcases List.mem_pair.mp hd with rfl | rfl <;> rcases List.mem_pair.mp hx with rfl | rfl <;>
    decide
theorem witness_PackBPackedStagesBothMasks :
    Memory.wf packing.dmem = true ∧
    packing.csrN ≠ 0 ∧ packing.csrMR ≠ 0 ∧ packing.csrNR ≠ 0 ∧
    packing.csrN.toNat % packing.csrMR.toNat = 0 ∧
    packing.csrN.toNat % packing.csrNR.toNat = 0 ∧
    (16#16).toNat % packing.csrNR.toNat = 0 ∧ (0#16).toNat % 8 = 0 ∧ (16#16).toNat % 8 = 0 ∧
    (0#16).toNat + (16#16).toNat ≤ packing.csrN.toNat ∧
    inDmem packing.dmemSize (0x100#32).toNat
      (packing.csrN.toNat * packing.csrN.toNat / 8) = true ∧
    inDmem packing.dmemSize (0x200#32).toNat
      (packing.csrN.toNat * packing.csrN.toNat / 8) = true ∧
    inDmem packing.dmemSize (0x300#32).toNat ((16#16).toNat * ((16#16).toNat / 8)) = true ∧
    inDmem packing.dmemSize (4064#32).toNat ((16#16).toNat * ((16#16).toNat / 8)) = true ∧
    (∀ d ∈ [0x300#32, 4064#32], ∀ x ∈ [0x100#32, 0x200#32], overlaps d.toNat
      ((16#16).toNat * ((16#16).toNat / 8)) x.toNat
      (packing.csrN.toNat * packing.csrN.toNat / 8) = false) ∧
    overlaps (0x300#32).toNat ((16#16).toNat * ((16#16).toNat / 8)) (4064#32).toNat
      ((16#16).toNat * ((16#16).toNat / 8)) = false := by
  refine ⟨by decide, by decide, by decide, by decide, by decide, by decide, by decide, by decide,
    by decide,
    by decide, by decide, by decide, by decide, by decide, ?_, by decide⟩
  intro d hd x hx
  rcases List.mem_pair.mp hd with rfl | rfl <;> rcases List.mem_pair.mp hx with rfl | rfl <;>
    decide
theorem witness_PanelOffsetsAreABijection :
    ∃ width steps panels p kk l : Nat, 0 < width ∧ p < panels ∧ kk < steps ∧ l < width ∧
      panelOffset width steps p kk l = panels * width * steps - 1 := ⟨8, 3, 2, 1, 2, 7, by decide⟩

theorem witness_TldLoadsTheActiveTile :
    ac2.csrN ≠ 0 ∧ ac2.csrMR ≠ 0 ∧ ac2.csrNR ≠ 0 ∧
    ac2.csrN.toNat % ac2.csrMR.toNat = 0 ∧ ac2.csrN.toNat % ac2.csrNR.toNat = 0 ∧
    (8#16).toNat + ac2.csrMR.toNat ≤ ac2.csrN.toNat ∧
    (0#16).toNat + ac2.csrNR.toNat ≤ ac2.csrN.toNat ∧
    inDmem ac2.dmemSize (3840#32).toNat (ac2.csrN.toNat * ac2.csrN.toNat) = true := by decide
theorem witness_TstStoresTheActiveTile :
    Memory.wf ac2.dmem = true ∧ ac2.csrN ≠ 0 ∧ ac2.csrMR ≠ 0 ∧ ac2.csrNR ≠ 0 ∧
    ac2.csrN.toNat % ac2.csrMR.toNat = 0 ∧ ac2.csrN.toNat % ac2.csrNR.toNat = 0 ∧
    (0#16).toNat + ac2.csrMR.toNat ≤ ac2.csrN.toNat ∧
    (8#16).toNat + ac2.csrNR.toNat ≤ ac2.csrN.toNat ∧
    inDmem ac2.dmemSize (3840#32).toNat (ac2.csrN.toNat * ac2.csrN.toNat) = true := by decide
theorem witness_TstThenTldRestoresTheTile :
    ∃ s t u v : State, s.inv = true ∧ exec (.tst 0x100 0 8) s = .next t ∧
      t.retired = s.retired + 1 ∧ u = { t with acc := u.acc } ∧
      exec (.tld 0x100 0 8) u = .next v :=
  ⟨ac2, ran (.tst 0x100 0 8) ac2, (ran (.tst 0x100 0 8) ac2).clearAcc,
    ran (.tld 0x100 0 8) (ran (.tst 0x100 0 8) ac2).clearAcc, by decide, rfl, by decide, rfl, rfl⟩

theorem witness_MkrAddsTheDotProducts :
    packing.csrMR ≠ 0 ∧ packing.csrNR ≠ 0 ∧
    inDmem packing.dmemSize (0#32).toNat ((2#32).toNat * packing.csrMR.toNat) = true ∧
    inDmem packing.dmemSize (4080#32).toNat ((2#32).toNat * packing.csrNR.toNat) = true := by
  decide
theorem witness_MkpAddsTheTernaryDotProducts :
    packing.csrMR ≠ 0 ∧ packing.csrNR ≠ 0 ∧ (16#32).toNat % 8 = 0 ∧
    inDmem packing.dmemSize (0x110#32).toNat ((16#32).toNat / 8 * packing.csrMR.toNat) = true ∧
    inDmem packing.dmemSize (0x210#32).toNat ((16#32).toNat / 8 * packing.csrMR.toNat) = true ∧
    inDmem packing.dmemSize (0#32).toNat ((16#32).toNat / 8 * packing.csrNR.toNat) = true ∧
    inDmem packing.dmemSize (4080#32).toNat ((16#32).toNat / 8 * packing.csrNR.toNat) = true := by
  decide

/-- A[0, 0] = 1 and B[0, 0] = -1, raw at 0x00 and 0x40, compressed from 0x80 on. -/
def kernels : State := block 256
  [(0x00, 0x01), (0x40, 0xFF), (0x80, 0x01), (0xA0, 0x01), (0xB0, 0x01)] 8 8 8

theorem witness_PackedAndRawKernelsAgree :
    kernels.csrMR ≠ 0 ∧ kernels.csrNR ≠ 0 ∧ (8#32).toNat % 8 = 0 ∧
    inDmem kernels.dmemSize (0x00#32).toNat ((8#32).toNat * kernels.csrMR.toNat) = true ∧
    inDmem kernels.dmemSize (0x40#32).toNat ((8#32).toNat * kernels.csrNR.toNat) = true ∧
    inDmem kernels.dmemSize (0x80#32).toNat ((8#32).toNat / 8 * kernels.csrMR.toNat) = true ∧
    inDmem kernels.dmemSize (0x90#32).toNat ((8#32).toNat / 8 * kernels.csrMR.toNat) = true ∧
    inDmem kernels.dmemSize (0xA0#32).toNat ((8#32).toNat / 8 * kernels.csrNR.toNat) = true ∧
    inDmem kernels.dmemSize (0xB0#32).toNat ((8#32).toNat / 8 * kernels.csrNR.toNat) = true ∧
    (∀ kk < (8#32).toNat / 8, ∀ bit < 8, ∀ l < kernels.csrMR.toNat,
      sext8 (kernels.read ((0x00#32).toNat + (8 * kk + bit) * kernels.csrMR.toNat + l)) =
        tdec ((kernels.read ((0x80#32).toNat + kk * kernels.csrMR.toNat + l)).getLsbD bit)
          ((kernels.read ((0x90#32).toNat + kk * kernels.csrMR.toNat + l)).getLsbD bit)) ∧
    (∀ kk < (8#32).toNat / 8, ∀ bit < 8, ∀ j < kernels.csrNR.toNat,
      sext8 (kernels.read ((0x40#32).toNat + (8 * kk + bit) * kernels.csrNR.toNat + j)) =
        tdec ((kernels.read ((0xA0#32).toNat + kk * kernels.csrNR.toNat + j)).getLsbD bit)
          ((kernels.read ((0xB0#32).toNat + kk * kernels.csrNR.toNat + j)).getLsbD bit)) := by
  decide
theorem witness_ReductionTilesCommute :
    ∃ s t u t' u' : State,
      (Instr.mkr 0x00 0x40 1).mnemonic ∈ ([.mkr, .mkp] : List Mnemonic) ∧
      (Instr.mkp 0x80 0x90 0xA0 0xB0 8).mnemonic ∈ ([.mkr, .mkp] : List Mnemonic) ∧
      exec (.mkr 0x00 0x40 1) s = .next t ∧ t.retired = s.retired + 1 ∧
      exec (.mkp 0x80 0x90 0xA0 0xB0 8) t = .next u ∧ u.retired = t.retired + 1 ∧
      exec (.mkp 0x80 0x90 0xA0 0xB0 8) s = .next t' ∧ exec (.mkr 0x00 0x40 1) t' = .next u' :=
  ⟨kernels, ran (.mkr 0x00 0x40 1) kernels,
    ran (.mkp 0x80 0x90 0xA0 0xB0 8) (ran (.mkr 0x00 0x40 1) kernels),
    ran (.mkp 0x80 0x90 0xA0 0xB0 8) kernels,
    ran (.mkr 0x00 0x40 1) (ran (.mkp 0x80 0x90 0xA0 0xB0 8) kernels),
    by decide, by decide, rfl, by decide, rfl, by decide, rfl, rfl⟩
theorem witness_SplitReductionAccumulates :
    ∃ s t u v : State,
      (0x08#32).toNat = (0x00#32).toNat + (1#32).toNat * s.csrMR.toNat ∧
      (0x48#32).toNat = (0x40#32).toNat + (1#32).toNat * s.csrNR.toNat ∧
      (3#32).toNat = (1#32).toNat + (2#32).toNat ∧
      exec (.mkr 0x00 0x40 1) s = .next t ∧ t.retired = s.retired + 1 ∧
      exec (.mkr 0x08 0x48 2) t = .next u ∧ u.retired = t.retired + 1 ∧
      exec (.mkr 0x00 0x40 3) s = .next v ∧ v.retired = s.retired + 1 :=
  ⟨kernels, ran (.mkr 0x00 0x40 1) kernels,
    ran (.mkr 0x08 0x48 2) (ran (.mkr 0x00 0x40 1) kernels), ran (.mkr 0x00 0x40 3) kernels,
    by decide, by decide, by decide, rfl, by decide, rfl, by decide, rfl, by decide⟩
theorem witness_SplitReductionAccumulates_packed :
    ∃ s t u v : State,
      (0x88#32).toNat = (0x80#32).toNat + (8#32).toNat / 8 * s.csrMR.toNat ∧
      (0x98#32).toNat = (0x90#32).toNat + (8#32).toNat / 8 * s.csrMR.toNat ∧
      (0xA8#32).toNat = (0xA0#32).toNat + (8#32).toNat / 8 * s.csrNR.toNat ∧
      (0xB8#32).toNat = (0xB0#32).toNat + (8#32).toNat / 8 * s.csrNR.toNat ∧
      (16#32).toNat = (8#32).toNat + (8#32).toNat ∧
      exec (.mkp 0x80 0x90 0xA0 0xB0 8) s = .next t ∧ t.retired = s.retired + 1 ∧
      exec (.mkp 0x88 0x98 0xA8 0xB8 8) t = .next u ∧ u.retired = t.retired + 1 ∧
      exec (.mkp 0x80 0x90 0xA0 0xB0 16) s = .next v ∧ v.retired = s.retired + 1 :=
  ⟨kernels, ran (.mkp 0x80 0x90 0xA0 0xB0 8) kernels,
    ran (.mkp 0x88 0x98 0xA8 0xB8 8) (ran (.mkp 0x80 0x90 0xA0 0xB0 8) kernels),
    ran (.mkp 0x80 0x90 0xA0 0xB0 16) kernels,
    by decide, by decide, by decide, by decide, by decide,
    rfl, by decide, rfl, by decide, rfl, by decide⟩

theorem witness_DotrNWritesProductsAndSum :
    Memory.wf dr5.dmem = true ∧
    inDmem dr5.dmemSize (0#32).toNat (laneCount .w16) = true ∧
    inDmem dr5.dmemSize (16#32).toNat (laneCount .w16) = true ∧
    inDmem dr5.dmemSize (4080#32).toNat (laneCount .w16) = true ∧
    overlaps (4080#32).toNat (laneCount .w16) (0#32).toNat (laneCount .w16) = false ∧
    overlaps (4080#32).toNat (laneCount .w16) (16#32).toNat (laneCount .w16) = false := by decide
theorem witness_MaskDotsWriteProductsAndSum :
    Memory.wf dr5.dmem = true ∧ inDmem dr5.dmemSize (0#32).toNat (laneCount .w8) = true ∧
    inDmem dr5.dmemSize (8#32).toNat (laneCount .w8) = true ∧
    overlaps (8#32).toNat (laneCount .w8) (0#32).toNat (laneCount .w8) = false := by decide
theorem witness_ThreeDotDerivationsAgree_shifted :
    ∃ s t : State, Memory.wf s.dmem = true ∧
      exec (.dotrS .w8 0 0xF0 0xC0 0x20) s = .next t ∧ t.retired = s.retired + 1 :=
  ⟨dr5, ran (.dotrS .w8 0 0xF0 0xC0 0x20) dr5, by decide, rfl, by decide⟩
/-- A raw B at 0x40 that holds what the masks 0xF0 and 0xC0 decode to. -/
theorem witness_ThreeDotDerivationsAgree_naive :
    ∃ s : State, inDmem s.dmemSize (0x40#32).toNat (laneCount .w8) = true ∧
      overlaps (0x20#32).toNat (laneCount .w8) (0x40#32).toNat (laneCount .w8) = false ∧
      (∀ i, i < laneCount .w8 → sext8 (s.read ((0x40#32).toNat + i)) =
        tdec ((0xF0#16).getLsbD (laneCount .w8 - 1 - i))
          ((0xC0#16).getLsbD (laneCount .w8 - 1 - i))) :=
  ⟨block 128 [(0x40, 0xFF), (0x41, 0xFF), (0x42, 1), (0x43, 1)] 0 0 0, by decide⟩

/-- TLD outside the matrix with nothing configured: CFG_UNSET and DIM_BOUNDS both apply. -/
def twoCauses : State := started (.tld 0xFFFFFFFF 9 0) State.reset

theorem witness_LowestCauseIsReported :
    descriptorCauseApplies twoCauses .cfgUnset = true ∧
    descriptorCauseApplies twoCauses .dimBounds = true ∧
    ∀ c, descriptorCauseApplies twoCauses c = true →
      (Cause.code .cfgUnset).toNat ≤ c.code.toNat :=
  ⟨by decide, by decide, by intro c; cases c <;> decide⟩
theorem witness_LowestCauseIsReported_reporting :
    ∃ t : State, twoCauses.fault = false ∧ twoCauses.runCommand = .next t ∧ t.fault = true ∧
      t.cause = Cause.code .cfgUnset :=
  ⟨after twoCauses twoCauses.runCommand, by decide, rfl, by decide, by decide⟩
/-- CMPR of one element that is not ternary: NOT_TERNARY alone applies. -/
theorem witness_FaultWritesStatusAlone :
    ∃ s : State, descriptorCauseApplies s .notTernary = true ∧
      ∀ c, descriptorCauseApplies s c = true →
        (Cause.code .notTernary).toNat ≤ c.code.toNat :=
  ⟨started (.cmpr 0x00 0x40 0x48 8) (block 128 [(2, 0x02)] 0 0 0), by decide,
    by intro c; cases c <;> decide⟩
theorem witness_CommandRetiresWhenNoCauseApplies_descriptor :
    ∀ c, descriptorCauseApplies (started (.zfill 0 4096) State.reset) c = false := by
  intro c; cases c <;> decide
theorem witness_CommandRetiresWhenNoCauseApplies :
    ∀ c, causeApplies State.reset (.zfill 0 4096) c = false := by intro c; cases c <;> decide
theorem witness_GoAfterFaultIsDropped :
    dec2.fault = true ∧ (1#32).getLsbD 0 = true ∧ (1#32).getLsbD 1 = false := by decide

/-- A faulted, idle block, HERR set, whose host writes DMEM next. -/
def faulted : State :=
  { dec2 with herr := true, host := [.access (.dmemWrite .word 4092 0x11223344)] }

theorem witness_FaultStaysUntilReset :
    ∃ t : State, faulted.inv = true ∧ faulted.fault = true ∧
      (∀ e, faulted.host.head? = some e → e.resets = false) ∧ step faulted = .next t :=
  ⟨after faulted (step faulted), by decide, by decide,
    fun e h => by cases h; decide, rfl⟩
theorem witness_HerrStaysUntilReset :
    ∃ t : State, faulted.herr = true ∧ faulted.srstPending = false ∧
      (∀ e, faulted.host.head? = some e → e.resets = false) ∧ step faulted = .next t :=
  ⟨after faulted (step faulted), by decide, by decide,
    fun e h => by cases h; decide, rfl⟩
theorem witness_CommandsWriteOnlyTheirState :
    ∃ t : State, exec (.mkr 0x00 0x40 1) kernels = .next t ∧
      (Instr.mkr 0x00 0x40 1).mnemonic ≠ .cfg ∧
      (Instr.mkr 0x00 0x40 1).mnemonic ∉ ([.dotrN, .dotrS, .dotrT] : List Mnemonic) ∧
      (Instr.mkr 0x00 0x40 1).mnemonic ∈ ([.nop, .cfg, .tclr, .tld, .mkr, .mkp] : List Mnemonic) ∧
      (Instr.zfill 0 1).mnemonic ∉ ([.tclr, .tld, .mkr, .mkp] : List Mnemonic) :=
  ⟨ran (.mkr 0x00 0x40 1) kernels, rfl, by decide⟩
theorem witness_StepKeepsInvariant :
    ∃ t : State, (placed 0x30).inv = true ∧ step (placed 0x30) = .next t :=
  ⟨after State.reset (step (placed 0x30)), by decide, rfl⟩
theorem witness_PowerOnSatisfiesInvariant :
    ∃ (size : Nat) (m : Memory), 1 ≤ size ∧ size ≤ 2 ^ 32 ∧ Memory.wf m = true ∧
      Memory.within size m = true := ⟨2 ^ 32, [(0, 7), (4294967295, 9)], by decide⟩

theorem witness_RegisterPortReads : dec2.busy = false ∧ dec2.status = 0x00030102#32 := by decide
theorem witness_ReservedOffsetsReadZero :
    (∀ off ∈ [0x020, 0x03C, 0x060], off % 4 = 0 ∧ (0x020 ≤ off ∧ off < 0x040 ∨ 0x060 ≤ off)) ∧
    AccessWidth.half ≠ AccessWidth.word ∧ 0x022 % 4 ≠ 0 := by decide
theorem witness_RegisterPortWrites : State.reset.busy = false := by decide
theorem witness_GoStartsTheCommand : State.reset.busy = false ∧ State.reset.fault = false ∧
    (1#32).getLsbD 0 = true ∧ (1#32).getLsbD 1 = false ∧
    (0xFFFFFFFC#32).getLsbD 0 = false ∧ (0xFFFFFFFC#32).getLsbD 1 = false := by decide
theorem witness_HostDmemAccessIsLittleEndian :
    Memory.wf xp1.dmem = true ∧ xp1.busy = false ∧
    60 % AccessWidth.word.bytes = 0 ∧ 60 + AccessWidth.word.bytes ≤ xp1.dmemSize ∧
    63 % AccessWidth.byte.bytes = 0 ∧ 63 + AccessWidth.byte.bytes ≤ xp1.dmemSize := by decide
theorem witness_BadHostAccessSetsHerr :
    1 % AccessWidth.half.bytes ≠ 0 ∧ xp1.dmemSize < 64 + AccessWidth.byte.bytes ∧
    AccessWidth.byte ≠ AccessWidth.word ∧ 0x042 % 4 ≠ 0 := by decide
theorem witness_HostWritesWhileBusyAreDropped : (placed 0x30).busy = true ∧
    (1#32).getLsbD 0 = true ∧ (1#32).getLsbD 1 = false := by decide
theorem witness_RegisterReadsWhileBusy :
    ∃ t : State, (placed 0x30).busy = true ∧ (placed 0x30).blockStep = .next t ∧ 0x01C % 4 = 0 :=
  ⟨(placed 0x30).afterCommand, by decide, rfl, by decide⟩
theorem witness_ResetClearsRegistersKeepsDmem :
    dec2.busy = false ∧ (2#32).getLsbD 1 = true := by decide
theorem witness_SoftResetWaitsForTheCommand :
    ∃ t : State, (placed 0x30).busy = true ∧ (placed 0x30).hostWaits = true ∧
      (3#32).getLsbD 1 = true ∧
      ({ placed 0x30 with srstPending := true } : State).turnTaken.runCommand = .next t :=
  ⟨after State.reset ({ placed 0x30 with srstPending := true } : State).turnTaken.runCommand,
    by decide, by decide, by decide, rfl⟩
/-- A ZFILL of the bytes 2 and 3, of which byte 3 holds 1. -/
theorem witness_HardResetWhileBusyMixesBytes :
    ∃ s t : State, Memory.wf s.dmem = true ∧ s.busy = true ∧ s.blockStep = .next t ∧
      s.read 3 ≠ t.read 3 :=
  ⟨started (.zfill 2 2) (block 64 [(3, 1)] 0 0 0),
    (started (.zfill 2 2) (block 64 [(3, 1)] 0 0 0)).afterCommand,
    by decide, by decide, rfl, by decide⟩

end Sys2Proof.Tests
end

section
/-! The register port's refused accesses (20_memory R62) and its reserved offsets (10_state R32). -/

namespace Sys2Proof.Machine

/-! ### The port behind a host access -/

@[simp] theorem State.hostAccess_regRead (s : State) (width : AccessWidth) (off : Nat) :
    s.hostAccess (.regRead width off) = s.hostRegRead width off := rfl

@[simp] theorem State.hostAccess_regWrite (s : State) (width : AccessWidth) (off : Nat) (v : Word) :
    s.hostAccess (.regWrite width off v) = s.hostRegWrite width off v := rfl

/-! ### Accesses the register port accepts and refuses (20_memory R62) -/

theorem regAccessOk_eq_false {width : AccessWidth} {off : Nat} :
    regAccessOk width off = false ↔ width ≠ .word ∨ off % 4 ≠ 0 := by
  simp only [regAccessOk, Bool.and_eq_false_iff, beq_eq_false_iff_ne]

theorem State.hostRegWrite_aligned (s : State) {off : Nat} (ho : off % 4 = 0) (v : Word) :
    s.hostRegWrite .word off v = s.writeReg (regAt off) v := by
  simp [State.hostRegWrite, regAccessOk, ho]

theorem State.hostRegRead_refused (s : State) {width : AccessWidth} {off : Nat}
    (h : width ≠ .word ∨ off % 4 ≠ 0) :
    s.hostRegRead width off = (s.answerAny width).setHerr := by
  simp [State.hostRegRead, regAccessOk_eq_false.mpr h]

theorem State.hostRegWrite_refused (s : State) {width : AccessWidth} {off : Nat}
    (h : width ≠ .word ∨ off % 4 ≠ 0) (v : Word) : s.hostRegWrite width off v = s.setHerr := by
  simp [State.hostRegWrite, regAccessOk_eq_false.mpr h]

/-! ### Reserved offsets (10_state R32) -/

/-- The offsets of R32 between the CSR views and CMD[0], and those above CMD[7]. -/
theorem regAt_eq_reserved {off : Nat} (h : 0x020 ≤ off ∧ off < 0x040 ∨ 0x060 ≤ off) :
    regAt off = .reserved := by
  unfold regAt
  iterate 8 rw [if_neg (by omega)]
  split
  · rw [dif_neg (by omega)]
  · rfl

/-- A reserved register reads 0 while the block is idle and while it is busy, and HERR stays. -/
theorem State.hostRegRead_reserved (s : State) {off : Nat} (ho : off % 4 = 0)
    (h : regAt off = .reserved) :
    (s.hostRegRead .word off).hostData = 0#32 ∧ (s.hostRegRead .word off).herr = s.herr := by
  cases hb : s.busy with
  | false =>
    rw [State.hostRegRead_idle hb ho, h]
    exact ⟨rfl, rfl⟩
  | true =>
    rw [State.hostRegRead_busy hb ho, h]
    exact ⟨rfl, rfl⟩

theorem State.hostRegWrite_reserved (s : State) {off : Nat} (ho : off % 4 = 0)
    (h : regAt off = .reserved) (v : Word) : s.hostRegWrite .word off v = s := by
  rw [State.hostRegWrite_aligned s ho, h]
  rfl

/-- Settles O51: `regAt` sends the reserved offsets to the register that reads 0 and ignores writes,
and the port refuses every other access with HERR. -/
theorem reservedOffsetsReadZero : Obligations.ReservedOffsetsReadZero := by
  intro s v
  simp only [State.hostAccess_regRead, State.hostAccess_regWrite]
  constructor
  · intro off haligned hreserved
    have hreg := regAt_eq_reserved hreserved
    obtain ⟨hdata, hherr⟩ := s.hostRegRead_reserved haligned hreg
    exact ⟨hdata, hherr, s.hostRegWrite_reserved haligned hreg v⟩
  · intro width off hbad
    rw [State.hostRegRead_refused s hbad, State.hostRegWrite_refused s hbad]
    exact ⟨State.setHerr_herr _, State.setHerr_herr s⟩

end Sys2Proof.Machine
end

section
/-! The accesses the DMEM port accepts, byte by byte in little-endian order (20_memory R61). -/

namespace Sys2Proof.Machine

/-! ### The port behind a host access -/

@[simp] theorem State.hostAccess_dmemRead (s : State) (width : AccessWidth) (addr : Nat) :
    s.hostAccess (.dmemRead width addr) = s.hostDmemRead width addr := rfl

@[simp] theorem State.hostAccess_dmemWrite (s : State) (width : AccessWidth) (addr : Nat)
    (v : Word) : s.hostAccess (.dmemWrite width addr v) = s.hostDmemWrite width addr v := rfl

/-! ### Accesses the DMEM port accepts (20_memory R62) -/

theorem dmemAccessOk_eq_true {size : Nat} {width : AccessWidth} {addr : Nat} :
    dmemAccessOk size width addr = true ↔
      addr % width.bytes = 0 ∧ addr + width.bytes ≤ size := by
  simp only [dmemAccessOk, Bool.and_eq_true, beq_iff_eq, decide_eq_true_eq]

theorem State.hostDmemRead_accepted {s : State} {width : AccessWidth} {addr : Nat}
    (hidle : s.busy = false) (hok : dmemAccessOk s.dmemSize width addr = true) :
    s.hostDmemRead width addr = s.answer (s.readDatum width addr) := by
  simp [State.hostDmemRead, hidle, hok]

theorem State.hostDmemWrite_accepted {s : State} {width : AccessWidth} {addr : Nat}
    (hidle : s.busy = false) (hok : dmemAccessOk s.dmemSize width addr = true) (v : Word) :
    s.hostDmemWrite width addr v = s.store (datumWrites width addr v) := by
  simp [State.hostDmemWrite, hidle, hok]

/-! ### The bytes of a datum (20_memory R61) -/

/-- Two neighbouring bytes, the one at the lower address below. -/
theorem State.readPair_byte (s : State) (addr : Nat) {k : Nat} (hk : k < 2) :
    (s.read (addr + 1) ++ s.read addr).extractLsb' (8 * k) 8 = s.read (addr + k) := by
  match k, hk with
  | 0, _ =>
    rw [BitVec.extractLsb'_append_eq_of_add_le (by decide)]
    exact BitVec.extractLsb'_eq_self
  | 1, _ =>
    rw [BitVec.extractLsb'_append_eq_of_le (by decide)]
    exact BitVec.extractLsb'_eq_self

/-- Byte `k` of a read's datum is the byte at `addr + k`; a word is two pairs, and byte `k` lies
wholly in one of them. -/
theorem State.readDatum_byte (s : State) {width : AccessWidth} (addr : Nat) {k : Nat}
    (hk : k < width.bytes) :
    (s.readDatum width addr).extractLsb' (8 * k) 8 = s.read (addr + k) := by
  cases width with simp only [AccessWidth.bytes, State.readDatum] at hk ⊢
  | byte =>
    obtain rfl : k = 0 := by omega
    rw [BitVec.extractLsb'_setWidth_of_le (by decide)]
    exact BitVec.extractLsb'_eq_self
  | half =>
    rw [BitVec.extractLsb'_setWidth_of_le (by omega)]
    exact s.readPair_byte addr hk
  | word =>
    by_cases hlow : k < 2
    · rw [BitVec.extractLsb'_append_eq_of_add_le (by omega)]
      exact s.readPair_byte addr hlow
    · obtain ⟨j, rfl⟩ : ∃ j, k = j + 2 := ⟨k - 2, by omega⟩
      rw [BitVec.extractLsb'_append_eq_of_le (by omega),
        show 8 * (j + 2) - (8 + 8) = 8 * j by omega, show addr + (j + 2) = addr + 2 + j by omega]
      exact s.readPair_byte (addr + 2) (by omega)

theorem mem_datumWrites {width : AccessWidth} {addr : Nat} {v : Word} {c : Host.Cell} :
    c ∈ datumWrites width addr v ↔
      ∃ t < width.bytes, (addr + t, v.extractLsb' (8 * t) 8) = c := by
  simp only [datumWrites, List.mem_map, List.mem_range]

/-- Each byte the write names holds its eight bits of the value: no two bytes share an address. -/
theorem State.read_store_datumWrites {s : State} (hwf : Memory.wf s.dmem = true)
    {width : AccessWidth} (addr : Nat) (v : Word) {k : Nat} (hk : k < width.bytes) :
    (s.store (datumWrites width addr v)).read (addr + k) = v.extractLsb' (8 * k) 8 := by
  apply State.read_store_of_mem hwf
  · exact ⟨_, mem_datumWrites.mpr ⟨k, hk, rfl⟩, rfl⟩
  · intro c hc hca
    obtain ⟨t, _, rfl⟩ := mem_datumWrites.mp hc
    obtain rfl : t = k := Nat.add_left_cancel hca
    rfl

theorem State.read_store_datumWrites_outside {s : State} (hwf : Memory.wf s.dmem = true)
    {width : AccessWidth} {addr : Nat} (v : Word) {x : Nat}
    (hx : ¬(addr ≤ x ∧ x < addr + width.bytes)) :
    (s.store (datumWrites width addr v)).read x = s.read x := by
  apply State.read_store_of_notMem hwf
  intro c hc
  obtain ⟨t, _, rfl⟩ := mem_datumWrites.mp hc
  simp only
  omega

/-- Settles O54: an accepted read answers with `readDatum` and an accepted write stores
`datumWrites`, whose bytes the lemmas above give. -/
theorem hostDmemAccessIsLittleEndian : Obligations.HostDmemAccessIsLittleEndian := by
  intro s width a v hwf hidle haligned hinside
  have hok := dmemAccessOk_eq_true.mpr ⟨haligned, hinside⟩
  simp only [State.hostAccess_dmemRead, State.hostAccess_dmemWrite,
    State.hostDmemRead_accepted hidle hok, State.hostDmemWrite_accepted hidle hok]
  refine ⟨fun k hk => ⟨s.readDatum_byte a hk, s.read_store_datumWrites hwf a v hk⟩,
    fun x hx => State.read_store_datumWrites_outside hwf v hx, ?readFrame, ?writeFrame⟩
  case readFrame => rfl
  case writeFrame => rfl

end Sys2Proof.Machine
end

section
/-! The opcode map as the decoder sees it: the words of each row, and the illegal opcodes
(30_encoding R76, R79). -/

namespace Sys2Proof

/-! ### The words of a row (30_encoding R76) -/

/-- The one bit a row may leave free is W16, CMD[0][8] (30_encoding R78). -/
theorem opcodeMap_free_bits :
    ∀ r ∈ opcodeMap, ~~~r.mask = 0#32 ∨ ~~~r.mask = BitVec.twoPow 32 8 := by decide

/-- A word of a row is the row's pattern, with or without the bit the row leaves free. -/
theorem eq_pattern_or_of_matches {r : OpcodeRow} (hr : r ∈ opcodeMap) {w : Word}
    (hw : w &&& r.mask = r.pattern) : w = r.pattern ∨ w = r.pattern ||| ~~~r.mask := by
  have hsplit : w = r.pattern ||| (w &&& ~~~r.mask) := by
    rw [← hw, ← BitVec.and_or_distrib_left, BitVec.or_not_self, BitVec.and_allOnes]
  obtain hfree | hfree := opcodeMap_free_bits r hr
  · left
    rwa [hfree, BitVec.and_zero, BitVec.or_zero] at hsplit
  · rw [hfree, BitVec.and_twoPow] at hsplit
    rw [hfree]
    split at hsplit
    · exact .inr hsplit
    · left
      rwa [BitVec.or_zero] at hsplit

/-- The words of the eighteen rows, evaluated. -/
theorem decodeControl_row_words :
    ∀ r ∈ opcodeMap, decodeControl r.pattern = .ok r.mnemonic ∧
      decodeControl (r.pattern ||| ~~~r.mask) = .ok r.mnemonic := by decide

theorem decodeControl_of_matches {r : OpcodeRow} (hr : r ∈ opcodeMap) {w : Word}
    (hw : w &&& r.mask = r.pattern) : decodeControl w = .ok r.mnemonic := by
  obtain ⟨hlow, hhigh⟩ := decodeControl_row_words r hr
  obtain rfl | rfl := eq_pattern_or_of_matches hr hw
  · exact hlow
  · exact hhigh

/-! ### What the decoder can answer (30_encoding R81) -/

/-- The three answers: an undefined OPC, a reserved encoding of a defined one, or a row's
mnemonic. -/
theorem decodeControl_cases (w : Word) :
    (opcField w ∉ definedOpcodes ∧ decodeControl w = .error .illegalOpcode) ∨
      (opcField w ∈ definedOpcodes ∧ decodeControl w = .error .reservedEnc) ∨
      (opcField w ∈ definedOpcodes ∧
        ∃ r ∈ opcodeMap, w &&& r.mask = r.pattern ∧ decodeControl w = .ok r.mnemonic) := by
  by_cases hopc : opcField w ∈ definedOpcodes
  case neg => exact .inl ⟨hopc, by simp [decodeControl, hopc]⟩
  by_cases hrow : ∃ r ∈ opcodeMap, w &&& r.mask = r.pattern
  case pos =>
    obtain ⟨r, hr, hw⟩ := hrow
    exact .inr (.inr ⟨hopc, r, hr, hw, decodeControl_of_matches hr hw⟩)
  have hfind : opcodeMap.find? (fun r => r.matchesWord w) = none :=
    List.find?_eq_none.mpr fun r hr hw => hrow ⟨r, hr, eq_of_beq hw⟩
  exact .inr (.inl ⟨hopc, by simp [decodeControl, hopc, hfind]⟩)

theorem decodeControl_eq_ok {w : Word} {m : Mnemonic} :
    decodeControl w = .ok m ↔ ∃ r ∈ opcodeMap, w &&& r.mask = r.pattern ∧ r.mnemonic = m := by
  constructor
  · intro hm
    obtain ⟨_, herr⟩ | ⟨_, herr⟩ | ⟨_, r, hr, hw, hok⟩ := decodeControl_cases w
    · cases herr.symm.trans hm
    · cases herr.symm.trans hm
    · exact ⟨r, hr, hw, Except.ok.inj (hok.symm.trans hm)⟩
  · rintro ⟨r, hr, hw, rfl⟩
    exact decodeControl_of_matches hr hw

theorem decodeControl_eq_illegalOpcode {w : Word} :
    decodeControl w = .error .illegalOpcode ↔ opcField w ∉ definedOpcodes := by
  obtain ⟨hopc, h⟩ | ⟨hopc, h⟩ | ⟨hopc, _, _, _, h⟩ := decodeControl_cases w <;> simp [hopc, h]

/-! ### One row per word (30_encoding R76) -/

theorem opcodeMap_eq_of_mnemonic_eq :
    ∀ r ∈ opcodeMap, ∀ r' ∈ opcodeMap, r.mnemonic = r'.mnemonic → r = r' := by decide

/-- Two rows of one word both give its mnemonic, and no two rows have the same mnemonic. -/
theorem opcodeMap_eq_of_matches {w : Word} {r r' : OpcodeRow} (hr : r ∈ opcodeMap)
    (hr' : r' ∈ opcodeMap) (hw : w &&& r.mask = r.pattern) (hw' : w &&& r'.mask = r'.pattern) :
    r = r' := by
  have hm := (decodeControl_of_matches hr hw).symm.trans (decodeControl_of_matches hr' hw')
  exact opcodeMap_eq_of_mnemonic_eq r hr r' hr' (Except.ok.inj hm)

/-- Settles O8: a row's words decode to it, and a word the decoder accepts was found in a row. -/
theorem controlWordDecodesToItsRow : Obligations.ControlWordDecodesToItsRow :=
  ⟨rfl, fun _ _ => decodeControl_eq_ok,
    fun _ _ hr _ hr' hw hw' => opcodeMap_eq_of_matches hr hr' hw hw'⟩

end Sys2Proof

namespace Sys2Proof.Machine

/-! ### Running a descriptor whose control word is rejected (30_encoding R79, R80) -/

theorem State.runCommand_of_decodeControl_error {s : State} {c : Cause}
    (h : decodeControl s.cmd[0] = .error c) : s.runCommand = .next (s.raise c) := by
  simp [State.runCommand, decode, h]

/-- Settles O9: only the opcode check answers ILLEGAL_OPCODE, and the descriptor then raises it. -/
theorem undefinedOpcodeIsIllegal : Obligations.UndefinedOpcodeIsIllegal :=
  ⟨fun _ => decodeControl_eq_illegalOpcode, fun _ hopc =>
    State.runCommand_of_decodeControl_error (decodeControl_eq_illegalOpcode.mpr hopc)⟩

end Sys2Proof.Machine
end

section
/-! The index and value pairs CFG accepts, one rule per register (40_control R102). -/

namespace Sys2Proof.Machine

@[simp] theorem legalCfg_dimension {val : Word} :
    legalCfg 0#32 val = true ↔ 1 ≤ val.toNat ∧ val.toNat ≤ 65535 := by
  simp [legalCfg]

/-- MR is index 1 and NR is index 2; both take the same two widths. -/
theorem legalCfg_tileWidth {idx val : Word} (hidx : idx = 1 ∨ idx = 2) :
    legalCfg idx val = true ↔ val = 8 ∨ val = 16 := by
  obtain rfl | rfl := hidx <;> simp [legalCfg]

theorem legalCfg_of_noRegister {idx val : Word} (h0 : idx ≠ 0) (h1 : idx ≠ 1) (h2 : idx ≠ 2) :
    legalCfg idx val = false := by
  simp_all [legalCfg]

/-- Settles O13: the index is that of N, of a tile width or of no register, and each has its rule. -/
theorem cfgLegalityIsTheRule : Obligations.CfgLegalityIsTheRule := by
  intro idx val
  by_cases h0 : idx = 0
  case pos => subst h0; simp
  by_cases h1 : idx = 1
  case pos => subst h1; simp [legalCfg_tileWidth]
  by_cases h2 : idx = 2
  case pos => subst h2; simp [legalCfg_tileWidth]
  simp only [legalCfg_of_noRegister h0 h1 h2, h0, h1, h2, Bool.false_eq_true, false_and, or_self]

end Sys2Proof.Machine
end

section
/-! Compression loses nothing: the masks of a retired CMPR decode to its source (41_codec R122,
R123). -/

namespace Sys2Proof.Machine

/-! ### A command that retired (20_memory R55) -/

/-- RETIRED tells the two ends of a command apart: a fault leaves it as it was. -/
theorem exec_of_retired {i : Instr} {s t : State} (hexec : exec i s = .next t)
    (hretired : t.retired = s.retired + 1) :
    commandCheck s i = .ok () ∧ t = (commandEffect s i).retire := by
  obtain ⟨c, _, hfault⟩ | ⟨hcheck, hdone⟩ := exec_cases i s
  · obtain rfl : s.raise c = t := Host.Outcome.next.inj (hfault.symm.trans hexec)
    simp at hretired
  · exact ⟨hcheck, Host.Outcome.next.inj (hexec.symm.trans hdone)⟩

/-! ### The checks and the writes of CMPR (41_codec R122) -/

section
variable {s : State} {src dv ds len : Nat}

theorem cmprCheck_eq_ok :
    cmprCheck s src dv ds len = .ok () ↔
      len % 8 = 0 ∧
      (inDmem s.dmemSize src len = true ∧ inDmem s.dmemSize dv (len / 8) = true ∧
        inDmem s.dmemSize ds (len / 8) = true) ∧
      (overlaps src len dv (len / 8) = false ∧ overlaps src len ds (len / 8) = false ∧
        overlaps dv (len / 8) ds (len / 8) = false) ∧
      ∀ x < len, isTernary (s.read (src + x)) = true := by
  simp only [cmprCheck, require_bind_eq_ok, require_eq_ok, Bool.and_eq_true, Bool.not_eq_true',
    beq_iff_eq, List.all_eq_true, List.mem_range, and_assoc]

theorem mem_cmprWrites {c : Host.Cell} :
    c ∈ cmprWrites s src dv ds len ↔
      ∃ g < len / 8, c = (dv + g, valueMask s src g) ∨ c = (ds + g, signMask s src g) := by
  simp only [cmprWrites, List.mem_flatMap, List.mem_range, List.mem_cons, List.not_mem_nil,
    or_false]

/-- No two writes of CMPR share an address: groups have their own byte in each mask region, and the
mask regions are disjoint. -/
theorem cmprWrites_inj (hmasks : overlaps dv (len / 8) ds (len / 8) = false) {c d : Host.Cell}
    (hc : c ∈ cmprWrites s src dv ds len) (hd : d ∈ cmprWrites s src dv ds len)
    (haddr : c.1 = d.1) : c = d := by
  rw [overlaps_eq_false] at hmasks
  obtain ⟨g, hg, rfl | rfl⟩ := mem_cmprWrites.mp hc <;>
    obtain ⟨g', hg', rfl | rfl⟩ := mem_cmprWrites.mp hd <;> simp only at haddr
  case inl.inl | inr.inr =>
    obtain rfl : g = g' := Nat.add_left_cancel haddr
    rfl
  case inl.inr | inr.inl => omega

/-- Every write of CMPR is read back. -/
theorem State.read_store_cmprWrites (hwf : Memory.wf s.dmem = true)
    (hmasks : overlaps dv (len / 8) ds (len / 8) = false) {c : Host.Cell}
    (hc : c ∈ cmprWrites s src dv ds len) :
    (s.store (cmprWrites s src dv ds len)).read c.1 = c.2 :=
  State.read_store_of_mem hwf ⟨c, hc, rfl⟩
    fun _ hd haddr => congrArg Prod.snd (cmprWrites_inj hmasks hd hc haddr)

theorem State.read_store_cmprWrites_value (hwf : Memory.wf s.dmem = true)
    (hmasks : overlaps dv (len / 8) ds (len / 8) = false) {g : Nat} (hg : g < len / 8) :
    (s.store (cmprWrites s src dv ds len)).read (dv + g) = valueMask s src g :=
  State.read_store_cmprWrites hwf hmasks (mem_cmprWrites.mpr ⟨g, hg, .inl rfl⟩)

theorem State.read_store_cmprWrites_sign (hwf : Memory.wf s.dmem = true)
    (hmasks : overlaps dv (len / 8) ds (len / 8) = false) {g : Nat} (hg : g < len / 8) :
    (s.store (cmprWrites s src dv ds len)).read (ds + g) = signMask s src g :=
  State.read_store_cmprWrites hwf hmasks (mem_cmprWrites.mpr ⟨g, hg, .inr rfl⟩)

theorem State.read_store_cmprWrites_outside (hwf : Memory.wf s.dmem = true) {a : Nat}
    (hvalue : ¬(dv ≤ a ∧ a < dv + len / 8)) (hsign : ¬(ds ≤ a ∧ a < ds + len / 8)) :
    (s.store (cmprWrites s src dv ds len)).read a = s.read a := by
  apply State.read_store_of_notMem hwf
  intro c hc
  obtain ⟨g, hg, rfl | rfl⟩ := mem_cmprWrites.mp hc <;> simp only <;> omega

end

/-- An address of one of two disjoint regions is not in the other. -/
theorem not_mem_of_overlaps_eq_false {a la b lb x : Nat} (h : overlaps a la b lb = false)
    (hx : x < la) : ¬(b ≤ a + x ∧ a + x < b + lb) := by
  rw [overlaps_eq_false] at h
  omega

/-! ### Exactness (41_codec R123) -/

theorem isTernary_iff {e : Byte} : isTernary e = true ↔ e = 0x00#8 ∨ e = 0x01#8 ∨ e = 0xFF#8 := by
  simp only [isTernary, Bool.or_eq_true, beq_iff_eq, or_assoc]

/-- Nonzero and negative are all there is to know of a ternary element. -/
theorem tdec_of_isTernary {e : Byte} (he : isTernary e = true) :
    tdec (sext8 e != 0) (decide (sext8 e < 0)) = sext8 e := by
  obtain rfl | rfl | rfl := isTernary_iff.mp he <;> decide

theorem tdec_masks {s : State} {src g b : Nat} (hb : b < 8)
    (he : isTernary (s.read (src + 8 * g + b)) = true) :
    tdec ((valueMask s src g).getLsbD b) ((signMask s src g).getLsbD b) =
      sext8 (s.read (src + 8 * g + b)) := by
  rw [valueMask, signMask, maskByte_getLsbD _ hb, maskByte_getLsbD _ hb]
  exact tdec_of_isTernary he

/-- Settles O20: a CMPR that retired passed its checks, so the two masks are stored apart from each
other and from the source, and each pair of mask bits comes from a ternary element. -/
theorem compressionIsExact : Obligations.CompressionIsExact := by
  intro src dv ds len s t hwf hexec hretired
  obtain ⟨hcheck, rfl⟩ := exec_of_retired hexec hretired
  obtain ⟨_, _, ⟨hvalue, hsign, hmasks⟩, hternary⟩ := cmprCheck_eq_ok.mp hcheck
  simp only [commandEffect, State.read_retire]
  constructor
  · intro g b hg hb
    rw [State.read_store_cmprWrites_value hwf hmasks hg,
      State.read_store_cmprWrites_sign hwf hmasks hg]
    have helement := hternary (8 * g + b) (by omega)
    rw [← Nat.add_assoc] at helement
    exact tdec_masks hb helement
  · intro x hx
    exact State.read_store_cmprWrites_outside hwf (not_mem_of_overlaps_eq_false hvalue hx)
      (not_mem_of_overlaps_eq_false hsign hx)

end Sys2Proof.Machine
end

section
/-! The product of a ternary pair and the popcount identity, from one pair of bits to a byte of
them (44_microkernel R193, R194). -/

namespace Sys2Proof.Machine

/-! ### One pair of bits (44_microkernel R193) -/

@[simp] theorem tdec_false (s : Bool) : tdec false s = 0 := rfl

theorem tdec_true (s : Bool) : tdec true s = if s then -1 else 1 := rfl

/-- Settles O32: an element whose value bit is 0 makes the product 0, and two nonzero elements have
the product of their signs. -/
theorem scalarProductFromBits : Obligations.ScalarProductFromBits := by
  intro av aSgn bv bSgn
  cases av
  case false => simp
  cases bv
  case false => simp
  case true => cases aSgn <;> cases bSgn <;> simp [tdec_true]

/-- The pair's product as bits to count: `common` counts 1, and `common & sign_diff` takes 2 off. -/
theorem tdec_mul_tdec (av aSgn bv bSgn : Bool) :
    tdec av aSgn * tdec bv bSgn =
      (if av && bv then 1 else 0) - 2 * (if (av && bv) && (aSgn ^^ bSgn) then 1 else 0) := by
  rw [scalarProductFromBits]
  cases av && bv
  case false => simp
  case true => cases aSgn ^^ bSgn <;> simp

/-! ### A byte of pairs (44_microkernel R194) -/

/-- The popcount identity on any list of bit positions, so that it can be proved by induction. -/
theorem sum_tdec_mul_tdec (av aSgn bv bSgn : Byte) (bits : List Nat) :
    (bits.map fun b =>
      tdec (av.getLsbD b) (aSgn.getLsbD b) * tdec (bv.getLsbD b) (bSgn.getLsbD b)).sum =
    (bits.countP fun b => (av &&& bv).getLsbD b : Int) -
      2 * (bits.countP fun b => ((av &&& bv) &&& (aSgn ^^^ bSgn)).getLsbD b : Int) := by
  induction bits with
  | nil => simp
  | cons b bits ih =>
    rw [List.map_cons, List.sum_cons, ih, tdec_mul_tdec, List.countP_cons, List.countP_cons]
    simp only [BitVec.getLsbD_and, BitVec.getLsbD_xor]
    push_cast
    ring

/-- Settles O33: `popcnt8` counts the bit positions 0 to 7. -/
theorem popcountIdentity : Obligations.PopcountIdentity :=
  fun av aSgn bv bSgn => sum_tdec_mul_tdec av aSgn bv bSgn (List.range 8)

end Sys2Proof.Machine
end

section
/-! The lanes of the three DOTR derivations as one product, and the checks and writes the three
commands share (45_rowdot R211 to R214). -/

namespace Sys2Proof.Machine

/-! ### The lanes as byte products (45_rowdot R214) -/

theorem wrap8_neg_sext8 (x : Byte) : wrap8 (-sext8 x) = -x := by
  simp [wrap8, sext8, BitVec.ofInt_neg]

/-- `(x ^ -s) + s` is the two's complement negation of `x` under the sign bit. -/
theorem xor_sign_add_sign (x : Byte) (s : Bool) :
    (x ^^^ (if s then 0xFF#8 else 0x00#8)) + wrap8 (if s then 1 else 0) = if s then -x else x := by
  cases s
  case false => simp [wrap8]
  case true =>
    have hxor : x ^^^ 0xFF#8 = ~~~x := BitVec.xor_allOnes
    exact (congrArg (· + 1#8) hxor).trans (BitVec.neg_eq_not_add x).symm

/-- The wrapped product with a decoded pair keeps, negates or clears the element. -/
theorem wrap8_mul_tdec (x : Byte) (v s : Bool) :
    wrap8 (sext8 x * tdec v s) = if v then (if s then -x else x) else 0 := by
  cases v
  case false => simp [wrap8]
  cases s
  case false => simp [tdec_true, wrap8_sext8]
  case true => simp [tdec_true, wrap8_neg_sext8]

theorem shiftedLane_eq (x : Byte) (v s : Bool) :
    shiftedLane x v s = wrap8 (sext8 x * tdec v s) := by
  rw [wrap8_mul_tdec]
  simp only [shiftedLane, wrap8_mul, wrap8_add, wrap8_sext8, xor_sign_add_sign]
  cases v <;> simp [wrap8]

theorem bitTestLane_eq (x : Byte) (v s : Bool) :
    bitTestLane x v s = wrap8 (sext8 x * tdec v s) := by
  rw [wrap8_mul_tdec]
  simp only [bitTestLane, wrap8_neg_sext8]
  cases v
  case false => simp
  case true =>
    have hand : ∀ y : Byte, y &&& 0xFF#8 = y := fun _ => BitVec.and_allOnes
    cases s <;> simp [hand]

theorem naiveLane_eq_shiftedLane {x y : Byte} {v s : Bool} (h : sext8 y = tdec v s) :
    naiveLane x y = shiftedLane x v s := by
  rw [shiftedLane_eq, ← h, naiveLane, mulWrap]

/-! ### The writes of a DOTR (45_rowdot R211) -/

section
variable {s : State} {w : Lanes} {dst : Nat} {lane lane' : Nat → Byte}

theorem mem_laneWrites {c : Host.Cell} :
    c ∈ laneWrites w dst lane ↔ ∃ i < laneCount w, (dst + i, lane i) = c := by
  simp only [laneWrites, List.mem_map, List.mem_range]

theorem State.read_storeLanes (hwf : Memory.wf s.dmem = true) {i : Nat} (hi : i < laneCount w) :
    (s.storeLanes w dst lane).read (dst + i) = lane i := by
  apply State.read_store_of_mem hwf
  · exact ⟨_, mem_laneWrites.mpr ⟨i, hi, rfl⟩, rfl⟩
  · intro c hc haddr
    obtain ⟨k, _, rfl⟩ := mem_laneWrites.mp hc
    obtain rfl : k = i := Nat.add_left_cancel haddr
    rfl

/-- Only the lanes below W reach the state. -/
theorem State.storeLanes_congr (h : ∀ i < laneCount w, lane i = lane' i) :
    s.storeLanes w dst lane = s.storeLanes w dst lane' := by
  have hwrites : laneWrites w dst lane = laneWrites w dst lane' :=
    List.map_congr_left fun i hi => by rw [h i (List.mem_range.mp hi)]
  have hproducts : laneProducts w lane = laneProducts w lane' :=
    List.map_congr_left fun i hi => h i (List.mem_range.mp hi)
  rw [State.storeLanes, State.storeLanes, hwrites, hproducts]

/-! ### The checks of a DOTR (45_rowdot R211, R212) -/

/-- A raw B in range and apart from the destination adds no fault to those of the mask forms. -/
theorem dotrNCheck_eq_dotrMaskCheck {a b : Nat} (hrange : inDmem s.dmemSize b (laneCount w) = true)
    (hapart : overlaps dst (laneCount w) b (laneCount w) = false) :
    dotrNCheck s w a b dst = dotrMaskCheck s w a dst := by
  simp only [dotrNCheck, dotrMaskCheck, hrange, hapart, Bool.and_true, Bool.not_false]

end

/-- Commands whose checks and effects agree on a state have the same outcome there. -/
theorem exec_congr {i j : Instr} {s : State} (hcheck : commandCheck s i = commandCheck s j)
    (heffect : commandEffect s i = commandEffect s j) : exec i s = exec j s := by
  simp only [exec_eq_endCommand, State.endCommand, hcheck, heffect]

/-! ### The three derivations (45_rowdot R214) -/

theorem exec_dotrS_eq_dotrT (w : Lanes) (a : Word) (vmask smask : Half) (dst : Word) (s : State) :
    exec (.dotrS w a vmask smask dst) s = exec (.dotrT w a vmask smask dst) s :=
  exec_congr rfl (State.storeLanes_congr fun _ _ => by rw [shiftedLane_eq, bitTestLane_eq])

theorem exec_dotrN_eq_dotrS {w : Lanes} {a b : Word} {vmask smask : Half} {dst : Word} {s : State}
    (hrange : inDmem s.dmemSize b.toNat (laneCount w) = true)
    (hapart : overlaps dst.toNat (laneCount w) b.toNat (laneCount w) = false)
    (hdecoded : ∀ i < laneCount w, sext8 (s.read (b.toNat + i)) =
      tdec (laneBit w vmask i) (laneBit w smask i)) :
    exec (.dotrN w a b dst) s = exec (.dotrS w a vmask smask dst) s :=
  exec_congr (dotrNCheck_eq_dotrMaskCheck hrange hapart)
    (State.storeLanes_congr fun i hi => naiveLane_eq_shiftedLane (hdecoded i hi))

/-- Settles O39: each lane of the three derivations is the wrapped product with the decoded pair,
and their checks differ only in those of the raw B. -/
theorem threeDotDerivationsAgree : Obligations.ThreeDotDerivationsAgree := by
  refine ⟨?product, exec_dotrS_eq_dotrT, ?naive⟩
  case product =>
    intro w a vmask smask dst s t hwf hexec hretired i hi
    obtain ⟨_, rfl⟩ := exec_of_retired hexec hretired
    rw [State.read_retire]
    exact (State.read_storeLanes hwf hi).trans (shiftedLane_eq _ _ _)
  case naive =>
    intro w a b vmask smask dst s hrange hapart hdecoded
    exact exec_dotrN_eq_dotrS hrange hapart hdecoded

end Sys2Proof.Machine
end

section
/-! The lowest of the causes that apply, and the decoder as the one that reports it for the encoding
(30_encoding R81, 60_exceptions R233). -/

namespace Sys2Proof

theorem Cause.code_injective : Function.Injective Cause.code := by
  intro c d
  cases c <;> cases d <;> decide

end Sys2Proof

namespace Sys2Proof.Machine

/-! ### The lowest of the causes that apply (60_exceptions R233) -/

/-- `c` applies, and no cause that applies has a lower code. -/
def LowestCause (applies : Cause → Bool) (c : Cause) : Prop :=
  applies c = true ∧ ∀ c', applies c' = true → c.code.toNat ≤ c'.code.toNat

theorem LowestCause.unique {applies : Cause → Bool} {c d : Cause} (hc : LowestCause applies c)
    (hd : LowestCause applies d) : c = d := by
  obtain ⟨happc, hlowc⟩ := hc
  obtain ⟨happd, hlowd⟩ := hd
  exact Cause.code_injective
    (BitVec.eq_of_toNat_eq (Nat.le_antisymm (hlowc d happd) (hlowd c happc)))

/-! ### Words that pass the encoding's checks (30_encoding R72, R81) -/

theorem encodingCauseApplies_illegalOpcode {w : Word} :
    encodingCauseApplies w .illegalOpcode = true ↔ opcField w ∉ definedOpcodes := by
  simp [encodingCauseApplies]

theorem eq_of_encodingCauseApplies {w : Word} {c : Cause} (h : encodingCauseApplies w c = true) :
    c = .illegalOpcode ∨ c = .reservedEnc := by
  cases c <;> simp [encodingCauseApplies] at h ⊢

/-- A control word with nothing but an opcode and the three FLAGS bits that some opcode defines. -/
def controlWordOf (f : BitVec 3) (opc : Byte) : Word := 0#21 ++ (f ++ opc)

theorem eq_controlWordOf {w : Word} (hres : resField w = 0#16)
    (hflags : flagsField w &&& 0xF8#8 = 0#8) :
    w = controlWordOf (w.extractLsb' 8 3) (opcField w) := by
  have hclear : ∀ i, 11 ≤ i → i < 32 → w.getLsbD i = false := by
    intro i hlow hi
    by_cases hmid : i < 16
    · have hbit := congrArg (·.getLsbD (i - 8)) hflags
      interval_cases i <;> simpa [flagsField] using hbit
    · have hbit := congrArg (·.getLsbD (i - 16)) hres
      simpa [resField, show i - 16 < 16 by omega, show 16 + (i - 16) = i by omega] using hbit
  apply BitVec.eq_of_getLsbD_eq
  intro i hi
  simp only [controlWordOf, opcField, BitVec.getLsbD_append, BitVec.getLsbD_extractLsb']
  by_cases hopc : i < 8
  · simp [hopc, show i < 11 by omega]
  by_cases hlow : i < 11
  · simp [hopc, hlow, show i - 8 < 3 by omega, show 8 + (i - 8) = i by omega]
  · simp [hlow, hclear i (by omega) hi]

/-- No opcode defines a FLAGS bit above bit 2. -/
theorem reserved_flags_of_definedOpcodes :
    ∀ opc ∈ definedOpcodes, ~~~(allowedFlags opc) &&& 0xF8#8 = 0xF8#8 := by decide

theorem controlWordOf_reserved_or_matches :
    ∀ opc ∈ definedOpcodes, ∀ f : BitVec 3,
      encodingCauseApplies (controlWordOf f opc) .reservedEnc = true ∨
        ∃ r ∈ opcodeMap, controlWordOf f opc &&& r.mask = r.pattern := by decide

/-- A word with a defined opcode is reserved or lies in a row: the decoder's last arm is never
reached. -/
theorem reserved_or_matches {w : Word} (hopc : opcField w ∈ definedOpcodes) :
    encodingCauseApplies w .reservedEnc = true ∨ ∃ r ∈ opcodeMap, w &&& r.mask = r.pattern := by
  by_cases hw : encodingCauseApplies w .reservedEnc = true
  case pos => exact .inl hw
  simp only [encodingCauseApplies, Bool.or_eq_true, not_or, bne_iff_ne, ne_eq, not_not] at hw
  obtain ⟨⟨hres, hflags⟩, _⟩ := hw
  have hshort : flagsField w &&& 0xF8#8 = 0#8 := by
    rw [← reserved_flags_of_definedOpcodes _ hopc, ← BitVec.and_assoc, hflags, BitVec.zero_and]
  rw [eq_controlWordOf hres hshort]
  exact controlWordOf_reserved_or_matches _ hopc _

theorem encodingCauseApplies_row_words :
    ∀ r ∈ opcodeMap, encodingCauseApplies r.pattern .reservedEnc = false ∧
      encodingCauseApplies (r.pattern ||| ~~~r.mask) .reservedEnc = false := by decide

/-! ### The decoder reports the lowest encoding cause (30_encoding R81) -/

theorem lowestCause_of_decodeControl_error {w : Word} {c : Cause}
    (h : decodeControl w = .error c) : LowestCause (encodingCauseApplies w) c := by
  obtain ⟨hopc, hw⟩ | ⟨hopc, hw⟩ | ⟨_, r, hr, hmatch, hw⟩ := decodeControl_cases w
  case inl =>
    obtain rfl := Except.error.inj (hw.symm.trans h)
    refine ⟨encodingCauseApplies_illegalOpcode.mpr hopc, fun c' _ => ?_⟩
    cases c' <;> decide
  case inr.inl =>
    obtain rfl := Except.error.inj (hw.symm.trans h)
    have happlies : encodingCauseApplies w .reservedEnc = true := by
      obtain happ | ⟨r, hr, hmatch⟩ := reserved_or_matches hopc
      · exact happ
      · cases hw.symm.trans (decodeControl_of_matches hr hmatch)
    refine ⟨happlies, fun c' hc' => ?_⟩
    obtain rfl | rfl := eq_of_encodingCauseApplies hc'
    · exact absurd hopc (encodingCauseApplies_illegalOpcode.mp hc')
    · exact le_rfl
  case inr.inr => cases hw.symm.trans h

theorem encodingCauseApplies_of_decodeControl_ok {w : Word} {m : Mnemonic}
    (h : decodeControl w = .ok m) (c : Cause) : encodingCauseApplies w c = false := by
  by_contra hc
  rw [Bool.not_eq_false] at hc
  obtain rfl | rfl := eq_of_encodingCauseApplies hc
  · have hillegal := encodingCauseApplies_illegalOpcode.mp hc
    cases h.symm.trans (decodeControl_eq_illegalOpcode.mpr hillegal)
  · obtain ⟨r, hr, hmatch, _⟩ := decodeControl_eq_ok.mp h
    obtain ⟨hlow, hhigh⟩ := encodingCauseApplies_row_words r hr
    obtain rfl | rfl := eq_pattern_or_of_matches hr hmatch
    · cases hc.symm.trans hlow
    · cases hc.symm.trans hhigh

end Sys2Proof.Machine
end

section
/-! Each command's checks in sequence, against the conditions of 60_exceptions R235: the checks take
the conditions by rising code, so the first that fails is the lowest. -/

namespace Sys2Proof.Machine

/-! ### A list of conditions, checked in order (60_exceptions R233) -/

/-- The first condition of a list that is true gives its cause. -/
def firstFault : List (Cause × Bool) → Except Cause Unit
  | [] => .ok ()
  | (c, b) :: rest => require (!b) c >>= fun _ => firstFault rest

@[simp] theorem firstFault_nil : firstFault [] = .ok () := rfl

@[simp] theorem firstFault_cons (c : Cause) (b : Bool) (rest : List (Cause × Bool)) :
    firstFault ((c, b) :: rest) = require (!b) c >>= fun _ => firstFault rest := rfl

theorem firstFault_eq_ok {l : List (Cause × Bool)} :
    firstFault l = .ok () ↔ ∀ c, (c, true) ∉ l := by
  induction l with
  | nil => simp
  | cons p l ih =>
    obtain ⟨d, b⟩ := p
    rw [firstFault_cons, require_bind_eq_ok, ih]
    simp only [List.mem_cons, not_or, forall_and]
    cases b <;> simp

/-- In a list that rises in code, the first fault is the lowest cause whose condition is true. -/
theorem firstFault_eq_error {l : List (Cause × Bool)}
    (hl : l.Pairwise fun p q => p.1.code.toNat ≤ q.1.code.toNat) {c : Cause}
    (h : firstFault l = .error c) :
    (c, true) ∈ l ∧ ∀ c', (c', true) ∈ l → c.code.toNat ≤ c'.code.toNat := by
  induction l with
  | nil => cases h
  | cons p l ih =>
    obtain ⟨d, b⟩ := p
    obtain ⟨hhead, htail⟩ := List.pairwise_cons.mp hl
    rw [firstFault_cons] at h
    cases b
    case true =>
      obtain rfl : d = c := Except.error.inj h
      refine ⟨List.mem_cons_self, fun c' hc' => ?_⟩
      obtain heq | hc' := List.mem_cons.mp hc'
      · obtain rfl : c' = d := congrArg Prod.fst heq
        exact le_rfl
      · exact hhead _ hc'
    case false =>
      obtain ⟨hmem, hleast⟩ := ih htail h
      simpa using ⟨hmem, hleast⟩

@[simp] theorem require_bind_ok {ok : Bool} {c : Cause} :
    (require ok c >>= fun _ => .ok ()) = require ok c := by
  cases ok <;> rfl

theorem require_and_bind {a b : Bool} {c : Cause} {k : Except Cause Unit} :
    (require (a && b) c >>= fun _ => k) =
      (require a c >>= fun _ => require b c >>= fun _ => k) := by
  cases a <;> rfl

theorem not_decide_lt {a b : Nat} : (!decide (a < b)) = decide (b ≤ a) := by
  rw [← decide_not, decide_eq_decide, not_lt]

/-! ### The checks of each command (60_exceptions R235) -/

section
variable (s : State)

theorem xposeCheck_eq_firstFault (src dst size : Nat) :
    xposeCheck s src dst size =
      firstFault (faultConditions.xposeConditions s src dst size).reverse := by
  simp [xposeCheck, faultConditions.xposeConditions]

theorem cmprCheck_eq_firstFault (src dv ds len : Word) :
    cmprCheck s src.toNat dv.toNat ds.toNat len.toNat =
      firstFault (faultConditions s (.cmpr src dv ds len)).reverse := by
  simp [cmprCheck, faultConditions, bne, List.not_any_eq_all_not]

/-- The one NOT_DIVISIBLE check of a pack command stands for two conditions, that of the tiles and
that of the extents. -/
theorem packRawCheck_eq_firstFault (width src dst p0 ext k0 kc : Nat) :
    packRawCheck s width src dst p0 ext k0 kc =
      firstFault (faultConditions.rawConditions s width src dst p0 ext k0 kc).reverse := by
  simp [packRawCheck, packGeometry, faultConditions.rawConditions,
    faultConditions.geometryConditions, State.geometrySet, State.tilesDivide, require_and_bind,
    not_decide_lt, bne, Nat.mod_one]

theorem packPackedCheck_eq_firstFault (width sv ss dv ds p0 ext k0 kc : Nat) :
    packPackedCheck s width sv ss dv ds p0 ext k0 kc =
      firstFault (faultConditions.packedConditions s width sv ss dv ds p0 ext k0 kc).reverse := by
  simp [packPackedCheck, packGeometry, faultConditions.packedConditions,
    faultConditions.geometryConditions, State.geometrySet, State.tilesDivide, require_and_bind,
    not_decide_lt, bne]

theorem tileCheck_eq_firstFault (cbase row0 col0 : Nat) :
    tileCheck s cbase row0 col0 =
      firstFault (faultConditions.tileConditions s cbase row0 col0).reverse := by
  simp [tileCheck, faultConditions.tileConditions, faultConditions.geometryConditions,
    State.geometrySet, State.tilesDivide, not_decide_lt, bne]

theorem mkrCheck_eq_firstFault (a b kc : Word) :
    mkrCheck s a.toNat b.toNat kc.toNat =
      firstFault (faultConditions s (.mkr a b kc)).reverse := by
  simp [mkrCheck, faultConditions, State.tileSet, bne]

theorem mkpCheck_eq_firstFault (aVal aSgn bVal bSgn kc : Word) :
    mkpCheck s aVal.toNat aSgn.toNat bVal.toNat bSgn.toNat kc.toNat =
      firstFault (faultConditions s (.mkp aVal aSgn bVal bSgn kc)).reverse := by
  simp [mkpCheck, faultConditions, State.tileSet, bne]

theorem dotrNCheck_eq_firstFault (w : Lanes) (a b dst : Word) :
    dotrNCheck s w a.toNat b.toNat dst.toNat =
      firstFault (faultConditions s (.dotrN w a b dst)).reverse := by
  simp [dotrNCheck, faultConditions]

theorem dotrMaskCheck_eq_firstFault (w : Lanes) (a dst : Nat) :
    dotrMaskCheck s w a dst =
      firstFault (faultConditions.dotrConditions s w a dst).reverse := by
  simp [dotrMaskCheck, faultConditions.dotrConditions]

/-- The conditions of every command are checked from the last of `faultConditions` to the first. -/
theorem commandCheck_eq_firstFault (i : Instr) :
    commandCheck s i = firstFault (faultConditions s i).reverse := by
  cases i with
  | nop => rfl
  | cfg idx val => simp [commandCheck, faultConditions]
  | zfill dst len => simp [commandCheck, faultConditions]
  | xposeC2R src dst rows cols => exact xposeCheck_eq_firstFault s _ _ _
  | xposeR2C src dst rows cols => exact xposeCheck_eq_firstFault s _ _ _
  | cmpr src dv ds len => exact cmprCheck_eq_firstFault s src dv ds len
  | packA src dst row0 k0 mc kc => exact packRawCheck_eq_firstFault s _ _ _ _ _ _ _
  | packAP sv ss dv ds row0 k0 mc kc => exact packPackedCheck_eq_firstFault s _ _ _ _ _ _ _ _ _
  | packB src dst col0 k0 nc kc => exact packRawCheck_eq_firstFault s _ _ _ _ _ _ _
  | packBP sv ss dv ds col0 k0 nc kc => exact packPackedCheck_eq_firstFault s _ _ _ _ _ _ _ _ _
  | tclr => rfl
  | tld cbase row0 col0 => exact tileCheck_eq_firstFault s _ _ _
  | tst cbase row0 col0 => exact tileCheck_eq_firstFault s _ _ _
  | mkr a b kc => exact mkrCheck_eq_firstFault s a b kc
  | mkp aVal aSgn bVal bSgn kc => exact mkpCheck_eq_firstFault s aVal aSgn bVal bSgn kc
  | dotrN w a b dst => exact dotrNCheck_eq_firstFault s w a b dst
  | dotrS w a vmask smask dst => exact dotrMaskCheck_eq_firstFault s w _ _
  | dotrT w a vmask smask dst => exact dotrMaskCheck_eq_firstFault s w _ _

/-- Read from the last to the first, the conditions of every command rise in code. -/
theorem faultConditions_reverse_pairwise (i : Instr) :
    (faultConditions s i).reverse.Pairwise fun p q => p.1.code.toNat ≤ q.1.code.toNat := by
  rw [List.pairwise_reverse]
  cases i <;>
    simp [faultConditions, faultConditions.xposeConditions, faultConditions.rawConditions,
      faultConditions.packedConditions, faultConditions.tileConditions,
      faultConditions.geometryConditions, faultConditions.dotrConditions, Cause.code]

end

theorem causeApplies_iff_mem_reverse {s : State} {i : Instr} {c : Cause} :
    causeApplies s i c = true ↔ (c, true) ∈ (faultConditions s i).reverse := by
  simp [causeApplies]

theorem lowestCause_of_commandCheck_error {s : State} {i : Instr} {c : Cause}
    (h : commandCheck s i = .error c) : LowestCause (causeApplies s i) c := by
  rw [commandCheck_eq_firstFault] at h
  simp only [LowestCause, causeApplies_iff_mem_reverse]
  exact firstFault_eq_error (faultConditions_reverse_pairwise s i) h

theorem causeApplies_of_commandCheck_ok {s : State} {i : Instr}
    (h : commandCheck s i = .ok ()) (c : Cause) : causeApplies s i c = false := by
  rw [commandCheck_eq_firstFault, firstFault_eq_ok] at h
  rw [← Bool.not_eq_true, causeApplies_iff_mem_reverse]
  exact h c

end Sys2Proof.Machine
end

section
/-! Running the descriptor in CMD: what it reports when causes apply, and what a fault writes
(60_exceptions R233, R236). -/

namespace Sys2Proof.Machine

/-! ### The causes of a descriptor (60_exceptions R233) -/

theorem descriptorCauseApplies_of_decodeControl_error {s : State} {d : Cause}
    (h : decodeControl s.cmd[0] = .error d) :
    descriptorCauseApplies s = encodingCauseApplies s.cmd[0] := by
  funext c
  simp [descriptorCauseApplies, decode, h]

theorem descriptorCauseApplies_of_decodeControl_ok {s : State} {m : Mnemonic}
    (h : decodeControl s.cmd[0] = .ok m) :
    descriptorCauseApplies s = causeApplies s (operands m s.cmd) := by
  funext c
  simp [descriptorCauseApplies, decode, h, encodingCauseApplies_of_decodeControl_ok h c]

theorem State.runCommand_of_decodeControl_ok {s : State} {m : Mnemonic}
    (h : decodeControl s.cmd[0] = .ok m) : s.runCommand = exec (operands m s.cmd) s := by
  simp [State.runCommand, decode, h]

/-! ### What running a descriptor can do (60_exceptions R233, R236) -/

/-- All that running the descriptor in CMD can do: fault with the lowest cause that applies, or,
when none applies, have a command's effect and retire. -/
theorem State.runCommand_cases (s : State) :
    (∃ c, LowestCause (descriptorCauseApplies s) c ∧ s.runCommand = .next (s.raise c)) ∨
      ((∀ c, descriptorCauseApplies s c = false) ∧
        ∃ i, s.runCommand = .next (commandEffect s i).retire) := by
  cases hdec : decodeControl s.cmd[0] with
  | error c =>
    rw [descriptorCauseApplies_of_decodeControl_error hdec]
    exact .inl ⟨c, lowestCause_of_decodeControl_error hdec,
      State.runCommand_of_decodeControl_error hdec⟩
  | ok m =>
    rw [descriptorCauseApplies_of_decodeControl_ok hdec, State.runCommand_of_decodeControl_ok hdec]
    obtain ⟨c, hcheck, hfault⟩ | ⟨hcheck, hdone⟩ := exec_cases (operands m s.cmd) s
    · exact .inl ⟨c, lowestCause_of_commandCheck_error hcheck, hfault⟩
    · exact .inr ⟨causeApplies_of_commandCheck_ok hcheck, _, hdone⟩

theorem State.runCommand_of_lowestCause {s : State} {c : Cause}
    (h : LowestCause (descriptorCauseApplies s) c) : s.runCommand = .next (s.raise c) := by
  obtain ⟨d, hd, hrun⟩ | ⟨hnone, _⟩ := s.runCommand_cases
  · rwa [h.unique hd]
  · obtain ⟨happlies, _⟩ := h
    cases (hnone c).symm.trans happlies

/-- A command that sets FAULT reports the lowest cause that applies. -/
theorem State.lowestCause_of_runCommand {s t : State} {c : Cause} (hclear : s.fault = false)
    (hrun : s.runCommand = .next t) (hfault : t.fault = true) (hcause : t.cause = c.code) :
    LowestCause (descriptorCauseApplies s) c := by
  obtain ⟨d, hd, hraise⟩ | ⟨_, i, hretire⟩ := s.runCommand_cases
  · obtain rfl : s.raise d = t := Host.Outcome.next.inj (hraise.symm.trans hrun)
    obtain rfl : d = c := Cause.code_injective hcause
    exact hd
  · obtain rfl : (commandEffect s i).retire = t :=
      Host.Outcome.next.inj (hretire.symm.trans hrun)
    obtain ⟨⟨_, hkept, _⟩, _⟩ := commandEffect_keeps i s
    rw [State.retire_fault, hkept, hclear] at hfault
    cases hfault

/-- Settles O41: running a descriptor raises the lowest cause that applies, and a retirement leaves
FAULT as it was. -/
theorem lowestCauseIsReported : Obligations.LowestCauseIsReported :=
  ⟨fun s c happlies hlowest =>
      ⟨State.runCommand_of_lowestCause ⟨happlies, hlowest⟩, State.raise_cause s c⟩,
    fun _ _ _ hclear hrun hfault hcause =>
      State.lowestCause_of_runCommand hclear hrun hfault hcause⟩

/-- Settles O43: the lowest cause that applies is raised, and raising writes those four fields. -/
theorem faultWritesStatusAlone : Obligations.FaultWritesStatusAlone :=
  fun _ _ happlies hlowest => State.runCommand_of_lowestCause ⟨happlies, hlowest⟩

end Sys2Proof.Machine
end

section
/-! The reset's values, and the two accesses of an idle block that are the reset
(10_state R35, 70_reset_and_hazards R260, R261). -/

namespace Sys2Proof.Machine

/-! ### What is read after a reset (70_reset_and_hazards R261) -/

@[simp] theorem State.resetRegisters_status (s : State) : s.resetRegisters.status = 0 := by
  have hzero : packStatus 0 0 false false false = 0 := by decide
  simpa [State.status] using hzero

theorem State.resetRegisters_cmd_get (s : State) (i : Fin 8) : s.resetRegisters.cmd[i] = 0 := by
  simp

/-- A reset leaves the tile as TCLR does. -/
@[simp] theorem State.accCell_resetRegisters (s : State) (l j : Nat) :
    s.resetRegisters.accCell l j = 0 :=
  s.accCell_clearAcc l j

/-! ### The reset sources (70_reset_and_hazards R260) -/

@[simp] theorem State.hostAccess_hardReset (s : State) :
    s.hostAccess .hardReset = s.hardReset := rfl

theorem State.hardReset_idle {s : State} (hidle : s.busy = false) :
    s.hardReset = s.resetRegisters := by
  simp [State.hardReset, hidle]

theorem State.writeCtrl_softReset_idle {s : State} {v : Word} (hsrst : v.getLsbD 1 = true)
    (hidle : s.busy = false) : s.writeCtrl v = s.resetRegisters := by
  simp [State.writeCtrl, hsrst, hidle]

theorem State.hostRegWrite_ctrl (s : State) (v : Word) :
    s.hostRegWrite .word 0x004 v = s.writeCtrl v :=
  s.hostRegWrite_aligned (by decide) v

/-- Settles O58: each field has its reset value, and while idle `hardReset` and a CTRL write with
SRST = 1 take the branch that is `resetRegisters`. -/
theorem resetClearsRegistersKeepsDmem : Obligations.ResetClearsRegistersKeepsDmem := by
  intro s
  refine ⟨?values, ?hard, ?soft⟩
  case values =>
    rintro t rfl
    exact ⟨rfl, rfl, rfl, rfl, rfl, rfl, rfl, rfl, s.resetRegisters_status, rfl, rfl,
      s.resetRegisters_cmd_get, s.accCell_resetRegisters, rfl, rfl⟩
  case hard =>
    intro hidle
    rw [State.hostAccess_hardReset, State.hardReset_idle hidle]
  case soft =>
    intro v hidle hsrst
    rw [State.hostAccess_regWrite, State.hostRegWrite_ctrl,
      State.writeCtrl_softReset_idle hsrst hidle]

end Sys2Proof.Machine
end

section
/-! The encoder and the decoder undo each other, and the words of a descriptor that have no effect
(30_encoding R74, R76, R85, R86). -/

namespace Sys2Proof

/-! ### Decoding what the encoder wrote (30_encoding R85) -/

theorem decodeControl_encode (i : Instr) : decodeControl (encode i)[0] = .ok i.mnemonic := by
  cases i with
  | nop => exact Laws.ControlDecodes.nop
  | cfg idx val => exact Laws.ControlDecodes.cfg idx val
  | zfill dst len => exact Laws.ControlDecodes.zfill dst len
  | xposeC2R src dst rows cols => exact Laws.ControlDecodes.xposeC2R src dst rows cols
  | xposeR2C src dst rows cols => exact Laws.ControlDecodes.xposeR2C src dst rows cols
  | cmpr src dv ds len => exact Laws.ControlDecodes.cmpr src dv ds len
  | packA src dst row0 k0 mc kc => exact Laws.ControlDecodes.packA src dst row0 k0 mc kc
  | packAP sv ss dv ds row0 k0 mc kc => exact Laws.ControlDecodes.packAP sv ss dv ds row0 k0 mc kc
  | packB src dst col0 k0 nc kc => exact Laws.ControlDecodes.packB src dst col0 k0 nc kc
  | packBP sv ss dv ds col0 k0 nc kc => exact Laws.ControlDecodes.packBP sv ss dv ds col0 k0 nc kc
  | tclr => exact Laws.ControlDecodes.tclr
  | tld cbase row0 col0 => exact Laws.ControlDecodes.tld cbase row0 col0
  | tst cbase row0 col0 => exact Laws.ControlDecodes.tst cbase row0 col0
  | mkr a b kc => exact Laws.ControlDecodes.mkr a b kc
  | mkp aVal aSgn bVal bSgn kc => exact Laws.ControlDecodes.mkp aVal aSgn bVal bSgn kc
  | dotrN w a b dst => exact Laws.ControlDecodes.dotrN w a b dst
  | dotrS w a vmask smask dst => exact Laws.ControlDecodes.dotrS w a vmask smask dst
  | dotrT w a vmask smask dst => exact Laws.ControlDecodes.dotrT w a vmask smask dst

/-- Whole words come back as they are, halves from their pair, and masks when they lie within the
lanes the control word states. -/
theorem operands_encode {i : Instr} (hi : i.wellFormed = true) :
    operands i.mnemonic (encode i) = i := by
  cases i
  case dotrS w a vmask smask dst | dotrT w a vmask smask dst =>
    obtain ⟨hv, hs⟩ : w.maskOk vmask = true ∧ w.maskOk smask = true := by
      simpa [Instr.wellFormed] using hi
    simp [Instr.mnemonic, operands, encode, maskOf_setWidth, hv, hs]
  all_goals simp [Instr.mnemonic, operands, encode]

theorem decode_of_decodeControl_ok {d : Descriptor} {m : Mnemonic}
    (h : decodeControl d[0] = .ok m) : decode d = .ok (operands m d) := by
  simp [decode, h]

/-- Settles O6: the control word names the command, and the operand words give its operands. -/
theorem decodeOfEncodeIsTheCommand : Obligations.DecodeOfEncodeIsTheCommand := by
  intro i hi
  rw [decode_of_decodeControl_ok (decodeControl_encode i), operands_encode hi]

/-! ### Encoding what the decoder read (30_encoding R74, R85) -/

theorem decode_eq_ok {d : Descriptor} {i : Instr} :
    decode d = .ok i ↔ ∃ m, decodeControl d[0] = .ok m ∧ i = operands m d := by
  unfold decode
  cases decodeControl d[0] <;> simp [eq_comm]

@[simp] theorem mnemonic_operands (m : Mnemonic) (d : Descriptor) :
    (operands m d).mnemonic = m := by
  cases m <;> rfl

theorem wellFormed_operands (m : Mnemonic) (d : Descriptor) :
    (operands m d).wellFormed = true := by
  cases m <;> simp [operands, Instr.wellFormed, maskOk_maskOf]

/-- The control word of a mnemonic, with the lane count where the row leaves W16 free. -/
def controlWord : Mnemonic → Lanes → Word
  | .nop, _ => 0x000#32
  | .cfg, _ => 0x001#32
  | .zfill, _ => 0x002#32
  | .xposeC2R, _ => 0x010#32
  | .xposeR2C, _ => 0x110#32
  | .cmpr, _ => 0x011#32
  | .packA, _ => 0x020#32
  | .packAP, _ => 0x120#32
  | .packB, _ => 0x021#32
  | .packBP, _ => 0x121#32
  | .tclr, _ => 0x030#32
  | .tld, _ => 0x031#32
  | .tst, _ => 0x032#32
  | .mkr, _ => 0x040#32
  | .mkp, _ => 0x041#32
  | .dotrN, w => dotrWord w 0#2
  | .dotrS, w => dotrWord w 1#2
  | .dotrT, w => dotrWord w 2#2

theorem encode_operands_zero (m : Mnemonic) (d : Descriptor) :
    (encode (operands m d))[0] = controlWord m (lanesOf d[0]) := by
  cases m <;> rfl

theorem controlWord_row_words :
    ∀ r ∈ opcodeMap, controlWord r.mnemonic (lanesOf r.pattern) = r.pattern ∧
      controlWord r.mnemonic (lanesOf (r.pattern ||| ~~~r.mask)) = r.pattern ||| ~~~r.mask := by
  decide

/-- The mnemonic and the lane count are all there is to an accepted control word. -/
theorem controlWord_of_decodeControl_ok {w : Word} {m : Mnemonic} (h : decodeControl w = .ok m) :
    controlWord m (lanesOf w) = w := by
  obtain ⟨r, hr, hw, rfl⟩ := decodeControl_eq_ok.mp h
  obtain ⟨hlow, hhigh⟩ := controlWord_row_words r hr
  obtain rfl | rfl := eq_pattern_or_of_matches hr hw
  · exact hlow
  · exact hhigh

@[simp] theorem pairWord_hiHalf_loHalf (w : Word) : pairWord (hiHalf w) (loHalf w) = w :=
  BitVec.extractLsb'_append_extractLsb'_eq_extractLsb' (w := 32) (by decide)
    |>.trans BitVec.extractLsb'_eq_self

/-- The bits of a mask word that lie within the lanes (45_rowdot R212). -/
def Lanes.maskBits : Lanes → Word
  | .w8 => 0xFF#32
  | .w16 => 0xFFFF#32

theorem setWidth_maskOf (w : Lanes) (m : Word) :
    (maskOf w m).setWidth 32 = m &&& w.maskBits := by
  cases w <;> apply BitVec.eq_of_toNat_eq
  case w8 =>
    have hand := Nat.and_two_pow_sub_one_eq_mod m.toNat 8
    simp [maskOf, Lanes.maskBits, BitVec.extractLsb'_toNat] at hand ⊢
    omega
  case w16 =>
    have hand := Nat.and_two_pow_sub_one_eq_mod m.toNat 16
    simp [maskOf, Lanes.maskBits, BitVec.extractLsb'_toNat] at hand ⊢
    omega

/-- An operand word is written back whole, but for a DOTR's masks, which come back within their
lanes. -/
theorem encode_operands_word (m : Mnemonic) (d : Descriptor) :
    ∀ k ∈ Machine.usedWords m, (encode (operands m d))[k] = d[k] ∨
      ((m = .dotrS ∨ m = .dotrT) ∧ (k = 3 ∨ k = 4) ∧
        (encode (operands m d))[k] = d[k] &&& (lanesOf d[0]).maskBits) := by
  cases m <;> simp [Machine.usedWords, operands, encode, setWidth_maskOf]

/-- The mask bits that come back, by the bit of the control word that holds W16. -/
theorem maskBits_lanesOf (w : Word) :
    w.getLsbD 8 = false ∧ (lanesOf w).maskBits = 0xFF#32 ∨
      w.getLsbD 8 = true ∧ (lanesOf w).maskBits = 0xFFFF#32 := by
  cases h : w.getLsbD 8
  case false => exact .inl ⟨rfl, by rw [lanesOf, h]; rfl⟩
  case true => exact .inr ⟨rfl, by rw [lanesOf, h]; rfl⟩

/-- Settles O7: the control word is that of the mnemonic and the lane count, and each used operand
word comes back whole or, a mask, within its lanes. -/
theorem decodedCommandIsItsDescriptor : Obligations.DecodedCommandIsItsDescriptor := by
  intro d i hdecode
  obtain ⟨m, hcontrol, rfl⟩ := decode_eq_ok.mp hdecode
  refine ⟨wellFormed_operands m d,
    (encode_operands_zero m d).trans (controlWord_of_decodeControl_ok hcontrol), ?_⟩
  rw [mnemonic_operands]
  intro k hk
  obtain hwhole | ⟨hdot, hmask, hword⟩ := encode_operands_word m d k hk
  · exact .inl hwhole
  obtain ⟨hbit, hbits⟩ | ⟨hbit, hbits⟩ := maskBits_lanesOf d[0] <;> rw [hbits] at hword
  · exact .inr (.inl ⟨hbit, hdot, hmask, hword⟩)
  · exact .inr (.inr ⟨hbit, hdot, hmask, hword⟩)

/-! ### Words that have no effect (30_encoding R74) -/

theorem operands_congr {m : Mnemonic} {d e : Descriptor} (hzero : d[0] = e[0])
    (hused : ∀ k ∈ Machine.usedWords m, d[k] = e[k]) : operands m d = operands m e := by
  cases m <;> simp_all [Machine.usedWords, operands]

/-- Settles O11: the mnemonic comes from word 0 alone, and its operands from the words it uses. -/
theorem ignoredWordsHaveNoEffect : Obligations.IgnoredWordsHaveNoEffect := by
  intro d e m hcontrol hzero hused
  rw [decode_of_decodeControl_ok hcontrol, decode_of_decodeControl_ok (hzero ▸ hcontrol),
    operands_congr hzero hused]

/-- Settles O5: each word is evaluated. -/
theorem specWordsDecode : Obligations.SpecWordsDecode := by
  unfold Obligations.SpecWordsDecode
  decide

end Sys2Proof

namespace Sys2Proof.Machine

/-! ### The reserved encodings, bit by bit (30_encoding R72, R80) -/

theorem decodeControl_eq_reservedEnc {w : Word} :
    decodeControl w = .error .reservedEnc ↔
      opcField w ∈ definedOpcodes ∧ encodingCauseApplies w .reservedEnc = true := by
  constructor
  · intro h
    obtain ⟨happlies, hlowest⟩ := lowestCause_of_decodeControl_error h
    refine ⟨?_, happlies⟩
    by_contra hopc
    cases (decodeControl_eq_illegalOpcode.mpr hopc).symm.trans h
  · rintro ⟨hopc, happlies⟩
    obtain ⟨hundef, _⟩ | ⟨_, h⟩ | ⟨_, r, _, _, h⟩ := decodeControl_cases w
    · exact absurd hopc hundef
    · exact h
    · cases happlies.symm.trans (encodingCauseApplies_of_decodeControl_ok h .reservedEnc)

theorem ne_zero_iff_exists_bit {n : Nat} {x : BitVec n} :
    x ≠ 0#n ↔ ∃ i < n, x.getLsbD i = true := by
  constructor
  · intro h
    by_contra hclear
    push Not at hclear
    exact h (BitVec.eq_of_getLsbD_eq fun i hi => by simpa using hclear i hi)
  · rintro ⟨i, _, hi⟩ rfl
    simp at hi

theorem resField_ne_zero {w : Word} :
    resField w ≠ 0#16 ↔ ∃ b, 16 ≤ b ∧ b < 32 ∧ w.getLsbD b = true := by
  rw [ne_zero_iff_exists_bit]
  constructor
  · rintro ⟨i, hi, hbit⟩
    exact ⟨16 + i, by omega, by omega, by simpa [resField, hi] using hbit⟩
  · rintro ⟨b, hlow, hhigh, hbit⟩
    refine ⟨b - 16, by omega, ?_⟩
    simpa [resField, show b - 16 < 16 by omega, show 16 + (b - 16) = b by omega] using hbit

/-- The FLAGS bits an opcode leaves undefined: bits 3 to 7 always, bits 1 and 2 but for DOTR, bit 0
but for the four opcodes with a flag. -/
theorem allowedFlags_getLsbD :
    ∀ opc ∈ definedOpcodes, ∀ i : Fin 8, (allowedFlags opc).getLsbD i = false ↔
      3 ≤ i.val ∨ (1 ≤ i.val ∧ i.val < 3 ∧ opc ≠ 0x50#8) ∨
        (i.val = 0 ∧ opc ∉ ([0x10#8, 0x20#8, 0x21#8, 0x50#8] : List Byte)) := by decide

theorem reservedFlags_ne_zero {w : Word} (hopc : opcField w ∈ definedOpcodes) :
    flagsField w &&& ~~~(allowedFlags (opcField w)) ≠ 0#8 ↔
      (∃ b, 11 ≤ b ∧ b < 16 ∧ w.getLsbD b = true) ∨
      (∃ b, 9 ≤ b ∧ b < 11 ∧ w.getLsbD b = true ∧ opcField w ≠ 0x50#8) ∨
      (w.getLsbD 8 = true ∧ opcField w ∉ ([0x10#8, 0x20#8, 0x21#8, 0x50#8] : List Byte)) := by
  have hbits : ∀ i < 8, (flagsField w &&& ~~~(allowedFlags (opcField w))).getLsbD i = true ↔
      w.getLsbD (8 + i) = true ∧ (3 ≤ i ∨ (1 ≤ i ∧ i < 3 ∧ opcField w ≠ 0x50#8) ∨
        (i = 0 ∧ opcField w ∉ ([0x10#8, 0x20#8, 0x21#8, 0x50#8] : List Byte))) := by
    intro i hi
    rw [← allowedFlags_getLsbD _ hopc ⟨i, hi⟩]
    simp [flagsField, hi]
  rw [ne_zero_iff_exists_bit]
  constructor
  · rintro ⟨i, hi, hbit⟩
    obtain ⟨hset, hhigh | ⟨hlow, hmid, hdot⟩ | ⟨rfl, hflag⟩⟩ := (hbits i hi).mp hbit
    · exact .inl ⟨8 + i, by omega, by omega, hset⟩
    · exact .inr (.inl ⟨8 + i, by omega, by omega, hset, hdot⟩)
    · exact .inr (.inr ⟨hset, hflag⟩)
  · rintro (⟨b, hlow, hhigh, hset⟩ | ⟨b, hlow, hhigh, hset, hdot⟩ | ⟨hset, hflag⟩)
    · refine ⟨b - 8, by omega, (hbits _ (by omega)).mpr ⟨?_, .inl (by omega)⟩⟩
      rwa [show 8 + (b - 8) = b by omega]
    · refine ⟨b - 8, by omega, (hbits _ (by omega)).mpr
        ⟨?_, .inr (.inl ⟨by omega, by omega, hdot⟩)⟩⟩
      rwa [show 8 + (b - 8) = b by omega]
    · exact ⟨0, by omega, (hbits 0 (by omega)).mpr ⟨hset, .inr (.inr ⟨rfl, hflag⟩)⟩⟩

theorem dotrV_eq_three {w : Word} :
    dotrV (flagsField w) = 3#2 ↔ w.getLsbD 9 = true ∧ w.getLsbD 10 = true := by
  have hbit : ∀ i < 2, (dotrV (flagsField w)).getLsbD i = w.getLsbD (9 + i) := by
    intro i hi
    simp [dotrV, flagsField, hi, show 1 + i < 8 by omega, ← Nat.add_assoc]
  have hall : ∀ v : BitVec 2, v = 3#2 ↔ v.getLsbD 0 = true ∧ v.getLsbD 1 = true := by decide
  rw [hall, hbit 0 (by omega), hbit 1 (by omega)]

/-- Settles O10: of a defined opcode, the decoder rejects exactly the words with a bit set in RES, a
flag the opcode leaves undefined, or V = 3, and the descriptor then raises RESERVED_ENC. -/
theorem reservedEncodingsFault : Obligations.ReservedEncodingsFault := by
  refine ⟨fun w => ?words, fun s h => State.runCommand_of_decodeControl_error h⟩
  rw [decodeControl_eq_reservedEnc]
  refine and_congr_right fun hopc => ?_
  simp only [encodingCauseApplies, Bool.or_eq_true, bne_iff_ne, Bool.and_eq_true, beq_iff_eq,
    resField_ne_zero, reservedFlags_ne_zero hopc, dotrV_eq_three, or_assoc]
  rfl

end Sys2Proof.Machine
end

section
/-! What a command does when its checks pass, and the commands with no operands to check or with one
check (20_memory R55, 40_control, 43_accumulator R171). -/

namespace Sys2Proof.Machine

/-! ### A command whose checks pass (20_memory R55) -/

theorem exec_of_commandCheck_ok {i : Instr} {s : State} (h : commandCheck s i = .ok ()) :
    exec i s = .next (commandEffect s i).retire := by
  rw [exec_eq_endCommand, s.endCommand_ok _ h]

theorem exec_of_commandCheck_error {i : Instr} {s : State} {c : Cause}
    (h : commandCheck s i = .error c) : exec i s = .next (s.raise c) := by
  rw [exec_eq_endCommand, s.endCommand_error _ h]

theorem retiredWritingMemory_store (s : State) (ws : List Host.Cell) :
    RetiredWritingMemory s (s.store ws).retire := rfl

theorem State.setActive_eq (s : State) (f : Nat → Nat → Byte) :
    s.setActive f = { s with acc := (s.setActive f).acc } := by
  simp only [State.setActive]

theorem retiredWritingAcc_setActive (s : State) (f : Nat → Nat → Byte) :
    RetiredWritingAcc s (s.setActive f).retire := by
  rw [s.setActive_eq f]
  rfl

theorem retiredWritingDot_storeLanes (s : State) (w : Lanes) (dst : Nat) (lane : Nat → Byte) :
    RetiredWritingDot s (s.storeLanes w dst lane).retire := rfl

/-- Writes that stay in a region leave every byte outside it. -/
theorem State.read_store_outside {s : State} (hwf : Memory.wf s.dmem = true)
    {ws : List Host.Cell} {base len : Nat} (hws : ∀ c ∈ ws, base ≤ c.1 ∧ c.1 < base + len) {a : Nat}
    (ha : ¬(base ≤ a ∧ a < base + len)) : (s.store ws).read a = s.read a :=
  State.read_store_of_notMem hwf fun c hc hca => ha (hca ▸ hws c hc)

/-! ### NOP, CFG and ZFILL (40_control) -/

/-- Settles O12: NOP has no check and no effect. -/
theorem nopOnlyRetires : Obligations.NopOnlyRetires := fun _ => rfl

theorem exec_cfg_of_legal {idx val : Word} (h : legalCfg idx val = true) (s : State) :
    exec (.cfg idx val) s = .next (s.writeCsr idx val).retire :=
  exec_of_commandCheck_ok (i := .cfg idx val) (require_eq_ok.mpr h)

theorem toNat_low_bits {val : Word} {n : Nat} (h : val.toNat < 2 ^ n) :
    (val.extractLsb' 0 n).toNat = val.toNat := by
  simp [BitVec.extractLsb'_toNat, Nat.mod_eq_of_lt h]

theorem toNat_tileWidth {val : Word} (h : val = 8 ∨ val = 16) :
    (val.extractLsb' 0 5).toNat = val.toNat := by
  obtain rfl | rfl := h <;> decide

/-- Settles O14: a legal pair writes the register of its index, in which the value fits; any other
pair fails the one check. -/
theorem cfgWritesOneRegister : Obligations.CfgWritesOneRegister := by
  intro idx val s
  refine ⟨?dimension, ?rows, ?columns, ?illegal⟩
  case dimension =>
    rintro rfl hlow hhigh
    exact ⟨_, exec_cfg_of_legal (legalCfg_dimension.mpr ⟨hlow, hhigh⟩) s,
      toNat_low_bits (by omega), rfl⟩
  case rows =>
    rintro rfl hval
    exact ⟨_, exec_cfg_of_legal ((legalCfg_tileWidth (.inl rfl)).mpr hval) s,
      toNat_tileWidth hval, rfl⟩
  case columns =>
    rintro rfl hval
    exact ⟨_, exec_cfg_of_legal ((legalCfg_tileWidth (.inr rfl)).mpr hval) s,
      toNat_tileWidth hval, rfl⟩
  case illegal =>
    intro hillegal
    have hcfg : legalCfg idx val = false := by
      rw [← Bool.not_eq_true, cfgLegalityIsTheRule]
      simpa only [or_and_right] using hillegal
    exact exec_of_commandCheck_error (i := .cfg idx val) (require_eq_error.mpr ⟨hcfg, rfl⟩)

theorem mem_zfillWrites {dst len : Nat} {c : Host.Cell} :
    c ∈ zfillWrites dst len ↔ ∃ x < len, (dst + x, 0#8) = c := by
  simp only [zfillWrites, List.mem_map, List.mem_range]

theorem mem_zfillWrites_range {dst len : Nat} {c : Host.Cell} (hc : c ∈ zfillWrites dst len) :
    dst ≤ c.1 ∧ c.1 < dst + len := by
  obtain ⟨x, hx, rfl⟩ := mem_zfillWrites.mp hc
  exact ⟨Nat.le_add_right _ _, Nat.add_lt_add_left hx dst⟩

theorem State.read_store_zfillWrites {s : State} (hwf : Memory.wf s.dmem = true)
    (dst len a : Nat) :
    (s.store (zfillWrites dst len)).read a =
      if dst ≤ a ∧ a < dst + len then 0#8 else s.read a := by
  split
  case isTrue ha =>
    apply State.read_store_of_mem hwf
    · exact ⟨_, mem_zfillWrites.mpr ⟨a - dst, by omega, rfl⟩, by simp only; omega⟩
    · intro c hc _
      obtain ⟨x, _, rfl⟩ := mem_zfillWrites.mp hc
      rfl
  case isFalse ha => exact State.read_store_outside hwf (fun _ => mem_zfillWrites_range) ha

/-- Settles O15: every write of ZFILL is a zero, and its addresses are the region. -/
theorem zfillZeroesItsRegion : Obligations.ZfillZeroesItsRegion := by
  intro dst len s hwf hinside
  exact ⟨_, exec_of_commandCheck_ok (i := .zfill dst len)
      (require_eq_ok.mpr (inDmem_eq_true.mpr hinside)),
    retiredWritingMemory_store s _, fun a => s.read_store_zfillWrites hwf _ _ a⟩

/-! ### TCLR (43_accumulator R171) -/

/-- Settles O26: TCLR has no check, and its effect is the cleared tile. -/
theorem tclrClearsEveryCell : Obligations.TclrClearsEveryCell :=
  fun s => ⟨s.clearAcc.retire, rfl, rfl, fun l j _ _ => s.accCell_clearAcc l j⟩

/-! ### Retirement and faults (60_exceptions R231, R235) -/

/-- Settles O40: the table, evaluated. -/
theorem causeCodesAreTheTable : Obligations.CauseCodesAreTheTable := by
  unfold Obligations.CauseCodesAreTheTable
  decide

theorem commandCheck_ok_of_no_cause {i : Instr} {s : State}
    (h : ∀ c, causeApplies s i c = false) : commandCheck s i = .ok () := by
  rw [commandCheck_eq_firstFault, firstFault_eq_ok]
  intro c
  rw [← causeApplies_iff_mem_reverse, h c]
  exact Bool.false_ne_true

/-- `t` is `s` after a retirement, STATUS as it was but for BUSY. -/
def RetiredCleanly (s t : State) : Prop :=
  t.retired = s.retired + 1 ∧ t.busy = false ∧
    t.fault = s.fault ∧ t.herr = s.herr ∧ t.cause = s.cause ∧ t.fopc = s.fopc

theorem retiredCleanly_commandEffect (i : Instr) (s : State) :
    RetiredCleanly s (commandEffect s i).retire := by
  obtain ⟨⟨_, hfault, hherr, hcause, hfopc, hretired⟩, _⟩ := commandEffect_keeps i s
  exact ⟨congrArg (· + 1) hretired, rfl, hfault, hherr, hcause, hfopc⟩

/-- Settles O42: with no cause the checks pass, and no effect touches STATUS. -/
theorem commandRetiresWhenNoCauseApplies : Obligations.CommandRetiresWhenNoCauseApplies := by
  constructor
  · intro i s hnone
    exact ⟨_, exec_of_commandCheck_ok (commandCheck_ok_of_no_cause hnone),
      retiredCleanly_commandEffect i s⟩
  · intro s hnone
    obtain ⟨c, ⟨happlies, _⟩, _⟩ | ⟨_, i, hrun⟩ := s.runCommand_cases
    · cases (hnone c).symm.trans happlies
    · exact ⟨_, hrun, retiredCleanly_commandEffect i s⟩

end Sys2Proof.Machine
end

section
/-! Reordering between row-major and column-major, and compression: the bytes each codec command
writes (41_codec R120 to R122). -/

namespace Sys2Proof.Machine

/-! ### The layouts of a matrix (42_packer R140, R141) -/

theorem cm_lt {rows cols r c : Nat} (hr : r < rows) (hc : c < cols) :
    cm r c rows < rows * cols :=
  calc r + rows * c < rows + rows * c := by omega
    _ = rows * (c + 1) := by ring
    _ ≤ rows * cols := Nat.mul_le_mul_left _ hc

theorem rm_lt {rows cols r c : Nat} (hr : r < rows) (hc : c < cols) :
    rm r c cols < rows * cols :=
  Nat.mul_comm rows cols ▸ cm_lt hc hr

/-- Every offset below rows · cols is that of an element. -/
theorem exists_cm_eq {rows cols x : Nat} (hx : x < rows * cols) :
    ∃ r c, r < rows ∧ c < cols ∧ cm r c rows = x := by
  have hrows : 0 < rows := Nat.pos_of_mul_pos_right (by omega : 0 < rows * cols)
  exact ⟨x % rows, x / rows, Nat.mod_lt _ hrows, Nat.div_lt_of_lt_mul hx, Nat.mod_add_div x rows⟩

/-! ### XPOSE (41_codec R120, R121) -/

theorem xposeCheck_eq_ok {s : State} {src dst size : Nat} :
    xposeCheck s src dst size = .ok () ↔
      (inDmem s.dmemSize src size = true ∧ inDmem s.dmemSize dst size = true) ∧
        overlaps src size dst size = false := by
  simp only [xposeCheck, require_bind_eq_ok, require_eq_ok, Bool.and_eq_true, Bool.not_eq_true']

section
variable {s : State} {src dst rows cols : Nat}

theorem mem_xposeC2RWrites_range {cell : Host.Cell}
    (hcell : cell ∈ xposeC2RWrites s src dst rows cols) :
    dst ≤ cell.1 ∧ cell.1 < dst + rows * cols := by
  obtain ⟨r, hr, c, hc, rfl⟩ := mem_forLoop2.mp hcell
  exact ⟨Nat.le_add_right _ _, Nat.add_lt_add_left (rm_lt hr hc) dst⟩

theorem mem_xposeR2CWrites_range {cell : Host.Cell}
    (hcell : cell ∈ xposeR2CWrites s src dst rows cols) :
    dst ≤ cell.1 ∧ cell.1 < dst + rows * cols := by
  obtain ⟨r, hr, c, hc, rfl⟩ := mem_forLoop2.mp hcell
  exact ⟨Nat.le_add_right _ _, Nat.add_lt_add_left (cm_lt hr hc) dst⟩

variable (hwf : Memory.wf s.dmem = true)
include hwf

theorem State.read_store_xposeC2RWrites {r c : Nat} (hr : r < rows) (hc : c < cols) :
    (s.store (xposeC2RWrites s src dst rows cols)).read (dst + rm r c cols) =
      s.read (src + cm r c rows) := by
  refine State.read_store_forLoop2 hwf (addr := fun r c => dst + rm r c cols)
    (fun r c r' c' _ hc _ hc' h => ?_) hr hc
  exact digits_inj hc hc' (Nat.add_left_cancel h)

theorem State.read_store_xposeC2RWrites_outside {a : Nat}
    (ha : ¬(dst ≤ a ∧ a < dst + rows * cols)) :
    (s.store (xposeC2RWrites s src dst rows cols)).read a = s.read a :=
  State.read_store_outside hwf (fun _ => mem_xposeC2RWrites_range) ha

theorem State.read_store_xposeR2CWrites {r c : Nat} (hr : r < rows) (hc : c < cols) :
    (s.store (xposeR2CWrites s src dst rows cols)).read (dst + cm r c rows) =
      s.read (src + rm r c cols) := by
  refine State.read_store_forLoop2 hwf (addr := fun r c => dst + cm r c rows)
    (fun r c r' c' hr _ hr' _ h => ?_) hr hc
  exact (digits_inj hr hr' (Nat.add_left_cancel h)).symm

theorem State.read_store_xposeR2CWrites_outside {a : Nat}
    (ha : ¬(dst ≤ a ∧ a < dst + rows * cols)) :
    (s.store (xposeR2CWrites s src dst rows cols)).read a = s.read a :=
  State.read_store_outside hwf (fun _ => mem_xposeR2CWrites_range) ha

end

/-- Settles O16: row-major offsets are distinct and fill the destination. -/
theorem xposeC2RReordersToRowMajor : Obligations.XposeC2RReordersToRowMajor := by
  intro src dst rows cols s hwf hsrc hdst hapart
  exact ⟨_, exec_of_commandCheck_ok (i := .xposeC2R src dst rows cols)
      (xposeCheck_eq_ok.mpr ⟨⟨hsrc, hdst⟩, hapart⟩),
    retiredWritingMemory_store s _, fun r c hr hc => State.read_store_xposeC2RWrites hwf hr hc,
    fun a ha => State.read_store_xposeC2RWrites_outside hwf ha⟩

/-- Settles O17: column-major offsets are distinct and fill the destination. -/
theorem xposeR2CReordersToColumnMajor : Obligations.XposeR2CReordersToColumnMajor := by
  intro src dst rows cols s hwf hsrc hdst hapart
  exact ⟨_, exec_of_commandCheck_ok (i := .xposeR2C src dst rows cols)
      (xposeCheck_eq_ok.mpr ⟨⟨hsrc, hdst⟩, hapart⟩),
    retiredWritingMemory_store s _, fun r c hr hc => State.read_store_xposeR2CWrites hwf hr hc,
    fun a ha => State.read_store_xposeR2CWrites_outside hwf ha⟩

/-- Settles O18: element (r, c) goes to its row-major place and from there back to its column-major
one, and every byte of the region is such an element. -/
theorem xposeR2CUndoesXposeC2R : Obligations.XposeR2CUndoesXposeC2R := by
  intro src mid dst rows cols s t u hwf hc2r hretired hr2c hretired' x hx
  obtain ⟨_, rfl⟩ := exec_of_retired hc2r hretired
  obtain ⟨_, rfl⟩ := exec_of_retired hr2c hretired'
  obtain ⟨r, c, hr, hc, rfl⟩ := exists_cm_eq hx
  have hmid : Memory.wf (commandEffect s (.xposeC2R src mid rows cols)).retire.dmem = true :=
    Memory.wf_writeAll _ hwf
  exact (State.read_store_xposeR2CWrites hmid hr hc).trans
    (State.read_store_xposeC2RWrites hwf hr hc)

/-! ### CMPR (41_codec R122) -/

theorem sext8_ne_zero {b : Byte} : sext8 b ≠ 0 ↔ b ≠ 0#8 :=
  not_congr ⟨fun h => BitVec.eq_of_toInt_eq h, fun h => h ▸ rfl⟩

theorem valueMask_getLsbD {s : State} {src g b : Nat} (hb : b < 8) :
    (valueMask s src g).getLsbD b = true ↔ s.read (src + 8 * g + b) ≠ 0#8 := by
  rw [valueMask, maskByte_getLsbD _ hb, bne_iff_ne, sext8_ne_zero]

theorem signMask_getLsbD {s : State} {src g b : Nat} (hb : b < 8) :
    (signMask s src g).getLsbD b = true ↔ sext8 (s.read (src + 8 * g + b)) < 0 := by
  rw [signMask, maskByte_getLsbD _ hb, decide_eq_true_eq]

/-- Settles O19: the checks pass, each mask byte is read back from its region, and its bits are
those of its group. -/
theorem cmprWritesValueAndSignMasks : Obligations.CmprWritesValueAndSignMasks := by
  intro src dv ds len s hwf hlen hsrc hdv hds hvalue hsign hmasks hternary
  have hcheck : commandCheck s (.cmpr src dv ds len) = .ok () :=
    cmprCheck_eq_ok.mpr ⟨hlen, ⟨hsrc, hdv, hds⟩, ⟨hvalue, hsign, hmasks⟩,
      fun x hx => isTernary_iff.mpr (hternary x hx)⟩
  refine ⟨_, exec_of_commandCheck_ok hcheck, retiredWritingMemory_store s _, ?masks, ?frame⟩ <;>
    simp only [commandEffect, State.read_retire]
  case masks =>
    intro g b hg hb
    rw [State.read_store_cmprWrites_value hwf hmasks hg,
      State.read_store_cmprWrites_sign hwf hmasks hg]
    exact ⟨valueMask_getLsbD hb, signMask_getLsbD hb⟩
  case frame =>
    intro a hnotValue hnotSign
    exact State.read_store_cmprWrites_outside hwf hnotValue hnotSign

end Sys2Proof.Machine
end

section
/-! Staging panels: one loop of writes behind the four pack commands, its offsets one-to-one onto
the destination (42_packer R144 to R151). -/

namespace Sys2Proof.Machine

/-! ### Panel offsets (42_packer R144, R151) -/

theorem exists_panelOffset_eq {width steps panels x : Nat} (hx : x < panels * width * steps) :
    ∃ p kk l, p < panels ∧ kk < steps ∧ l < width ∧ panelOffset width steps p kk l = x := by
  rw [show panels * width * steps = width * (steps * panels) by ring] at hx
  obtain ⟨l, y, hl, hy, rfl⟩ := exists_cm_eq hx
  obtain ⟨kk, p, hkk, hp, rfl⟩ := exists_cm_eq hy
  exact ⟨p, kk, l, hp, hkk, hl, by simp only [panelOffset, cm]; ring⟩

/-- Settles O25: offsets lie below the size, each number below it is one, and no two triples share
an offset. -/
theorem panelOffsetsAreABijection : Obligations.PanelOffsetsAreABijection := by
  intro width steps panels _
  refine ⟨fun p kk l => panelOffset_lt, fun x hx => ?_⟩
  obtain ⟨p, kk, l, hp, hkk, hl, rfl⟩ := exists_panelOffset_eq hx
  exact ⟨p, kk, l, hp, hkk, hl, rfl, fun p' kk' l' _ hkk' hl' h =>
    panelOffset_inj hkk' hl' hkk hl h⟩

/-! ### Panels written to a buffer (42_packer R146 to R149) -/

/-- The writes of a buffer of panels at `dst`, with the byte of each panel, step and lane. -/
def panelWrites (dst width steps panels : Nat) (val : Nat → Nat → Nat → Byte) : List Host.Cell :=
  forLoop3 panels steps width fun p kk l => (dst + panelOffset width steps p kk l, val p kk l)

section
variable {s : State}

theorem packAWrites_eq (src dst row0 k0 mc kc : Nat) :
    packAWrites s src dst row0 k0 mc kc =
      panelWrites dst s.csrMR.toNat kc (mc / s.csrMR.toNat) fun p kk l =>
        s.read (src + cm (row0 + p * s.csrMR.toNat + l) (k0 + kk) s.csrN.toNat) := rfl

theorem packBWrites_eq (src dst col0 k0 nc kc : Nat) :
    packBWrites s src dst col0 k0 nc kc =
      panelWrites dst s.csrNR.toNat kc (nc / s.csrNR.toNat) fun q kk l =>
        s.read (src + cm (k0 + kk) (col0 + q * s.csrNR.toNat + l) s.csrN.toNat) := rfl

theorem packAPMaskWrites_eq (src dst row0 k0 mc kc : Nat) :
    packAPMaskWrites s src dst row0 k0 mc kc =
      panelWrites dst s.csrMR.toNat (kc / 8) (mc / s.csrMR.toNat) fun p kk l =>
        s.read (src + cm (row0 + p * s.csrMR.toNat + l) (k0 / 8 + kk) s.csrN.toNat) := rfl

theorem packBPMaskWrites_eq (src dst col0 k0 nc kc : Nat) :
    packBPMaskWrites s src dst col0 k0 nc kc =
      panelWrites dst s.csrNR.toNat (kc / 8) (nc / s.csrNR.toNat) fun q kk l =>
        s.read (src + cm (k0 / 8 + kk) (col0 + q * s.csrNR.toNat + l) (s.csrN.toNat / 8)) := rfl

variable {dst width steps ext : Nat} {val : Nat → Nat → Nat → Byte}

/-- The panels of `ext` lanes stay in a buffer of `ext` · `steps` bytes. -/
theorem mem_panelWrites_range (hext : ext % width = 0) {c : Host.Cell}
    (hc : c ∈ panelWrites dst width steps (ext / width) val) :
    dst ≤ c.1 ∧ c.1 < dst + ext * steps := by
  obtain ⟨p, hp, kk, hkk, l, hl, rfl⟩ := mem_forLoop3.mp hc
  have hlt := panelOffset_lt hp hkk hl
  rw [Nat.div_mul_cancel (Nat.dvd_of_mod_eq_zero hext)] at hlt
  exact ⟨Nat.le_add_right _ _, Nat.add_lt_add_left hlt dst⟩

theorem State.read_store_panelWrites (hwf : Memory.wf s.dmem = true) {panels p kk l : Nat}
    (hp : p < panels) (hkk : kk < steps) (hl : l < width) :
    (s.store (panelWrites dst width steps panels val)).read
      (dst + panelOffset width steps p kk l) = val p kk l :=
  State.read_store_forLoop3 hwf (addr := fun p kk l => dst + panelOffset width steps p kk l)
    (fun _ _ _ _ _ _ _ hkk hl _ hkk' hl' h =>
      panelOffset_inj hkk hl hkk' hl' (Nat.add_left_cancel h)) hp hkk hl

theorem State.read_store_panelWrites_outside (hwf : Memory.wf s.dmem = true)
    (hext : ext % width = 0) {a : Nat} (ha : ¬(dst ≤ a ∧ a < dst + ext * steps)) :
    (s.store (panelWrites dst width steps (ext / width) val)).read a = s.read a :=
  State.read_store_outside hwf (fun _ hc => mem_panelWrites_range hext hc) ha

/-! ### Two buffers of panels (42_packer R147, R149) -/

theorem State.store_append (xs ys : List Host.Cell) :
    s.store (xs ++ ys) = (s.store xs).store ys := by
  simp only [State.store, Memory.writeAll, List.foldl_append]

variable {dst' : Nat} {val' : Nat → Nat → Nat → Byte}

theorem State.read_store_panelWrites_pair (hwf : Memory.wf s.dmem = true) (hext : ext % width = 0)
    (hapart : overlaps dst (ext * steps) dst' (ext * steps) = false) {p kk l : Nat}
    (hp : p < ext / width) (hkk : kk < steps) (hl : l < width) :
    (s.store (panelWrites dst width steps (ext / width) val
        ++ panelWrites dst' width steps (ext / width) val')).read
      (dst + panelOffset width steps p kk l) = val p kk l ∧
    (s.store (panelWrites dst width steps (ext / width) val
        ++ panelWrites dst' width steps (ext / width) val')).read
      (dst' + panelOffset width steps p kk l) = val' p kk l := by
  have hwf' : Memory.wf (s.store (panelWrites dst width steps (ext / width) val)).dmem = true :=
    Memory.wf_writeAll _ hwf
  have hin := panelOffset_lt hp hkk hl
  rw [Nat.div_mul_cancel (Nat.dvd_of_mod_eq_zero hext)] at hin
  rw [State.store_append]
  constructor
  · rw [State.read_store_panelWrites_outside hwf' hext (not_mem_of_overlaps_eq_false hapart hin)]
    exact State.read_store_panelWrites hwf hp hkk hl
  · exact State.read_store_panelWrites hwf' hp hkk hl

theorem State.read_store_panelWrites_pair_outside (hwf : Memory.wf s.dmem = true)
    (hext : ext % width = 0) {a : Nat} (ha : ¬(dst ≤ a ∧ a < dst + ext * steps))
    (ha' : ¬(dst' ≤ a ∧ a < dst' + ext * steps)) :
    (s.store (panelWrites dst width steps (ext / width) val
        ++ panelWrites dst' width steps (ext / width) val')).read a = s.read a := by
  have hwf' : Memory.wf (s.store (panelWrites dst width steps (ext / width) val)).dmem = true :=
    Memory.wf_writeAll _ hwf
  rw [State.store_append, State.read_store_panelWrites_outside hwf' hext ha',
    State.read_store_panelWrites_outside hwf hext ha]

/-! ### The checks of the pack commands (42_packer R146 to R149) -/

theorem State.geometrySet_iff :
    s.geometrySet = true ↔ s.csrN ≠ 0 ∧ s.csrMR ≠ 0 ∧ s.csrNR ≠ 0 := by
  simp only [State.geometrySet, Bool.and_eq_true, bne_iff_ne, and_assoc]

theorem State.tilesDivide_iff :
    s.tilesDivide = true ↔
      s.csrN.toNat % s.csrMR.toNat = 0 ∧ s.csrN.toNat % s.csrNR.toNat = 0 := by
  simp only [State.tilesDivide, Bool.and_eq_true, beq_iff_eq]

variable {src sv ss dv ds p0 k0 kc kUnit : Nat}

theorem packGeometry_eq_ok :
    packGeometry s width kUnit p0 ext k0 kc = .ok () ↔
      (s.csrN ≠ 0 ∧ s.csrMR ≠ 0 ∧ s.csrNR ≠ 0) ∧
      (s.csrN.toNat % s.csrMR.toNat = 0 ∧ s.csrN.toNat % s.csrNR.toNat = 0) ∧
      (ext % width = 0 ∧ k0 % kUnit = 0 ∧ kc % kUnit = 0) ∧
      p0 + ext ≤ s.csrN.toNat ∧ k0 + kc ≤ s.csrN.toNat := by
  simp only [packGeometry, require_bind_eq_ok, require_eq_ok, Bool.and_eq_true, beq_iff_eq,
    decide_eq_true_eq, State.geometrySet_iff, State.tilesDivide_iff, and_assoc]

theorem packRawCheck_eq_ok :
    packRawCheck s width src dst p0 ext k0 kc = .ok () ↔
      packGeometry s width 1 p0 ext k0 kc = .ok () ∧
      (inDmem s.dmemSize src (s.csrN.toNat * s.csrN.toNat) = true ∧
        inDmem s.dmemSize dst (ext * kc) = true) ∧
      overlaps dst (ext * kc) src (s.csrN.toNat * s.csrN.toNat) = false := by
  simp only [packRawCheck, check_bind_eq_ok, require_eq_ok, Bool.and_eq_true, Bool.not_eq_true']

theorem packPackedCheck_eq_ok :
    packPackedCheck s width sv ss dv ds p0 ext k0 kc = .ok () ↔
      packGeometry s width 8 p0 ext k0 kc = .ok () ∧
      (inDmem s.dmemSize sv (s.csrN.toNat * s.csrN.toNat / 8) = true ∧
        inDmem s.dmemSize ss (s.csrN.toNat * s.csrN.toNat / 8) = true ∧
        inDmem s.dmemSize dv (ext * (kc / 8)) = true ∧
        inDmem s.dmemSize ds (ext * (kc / 8)) = true) ∧
      overlaps dv (ext * (kc / 8)) ds (ext * (kc / 8)) = false ∧
      ∀ d ∈ [dv, ds], ∀ x ∈ [sv, ss],
        overlaps d (ext * (kc / 8)) x (s.csrN.toNat * s.csrN.toNat / 8) = false := by
  simp [packPackedCheck, check_bind_eq_ok, require_eq_ok, and_assoc]

end

/-! ### The four pack commands (42_packer R146 to R149) -/

/-- Settles O21: the writes of PACKA are one buffer of panels of MR lanes. -/
theorem packAStagesRowPanels : Obligations.PackAStagesRowPanels := by
  intro src dst row0 k0 mc kc s hwf hN hMR hNR hdivMR hdivNR hext hrows hcols hsrc hdst hapart
  have hcheck : commandCheck s (.packA src dst row0 k0 mc kc) = .ok () :=
    packRawCheck_eq_ok.mpr ⟨packGeometry_eq_ok.mpr ⟨⟨hN, hMR, hNR⟩, ⟨hdivMR, hdivNR⟩,
      ⟨hext, Nat.mod_one _, Nat.mod_one _⟩, hrows, hcols⟩, ⟨hsrc, hdst⟩, hapart⟩
  refine ⟨_, exec_of_commandCheck_ok hcheck, retiredWritingMemory_store s _, ?panels, ?frame⟩ <;>
    simp only [commandEffect, State.read_retire, packAWrites_eq]
  case panels => exact fun p kk l hp hkk hl => State.read_store_panelWrites hwf hp hkk hl
  case frame => exact fun a ha => State.read_store_panelWrites_outside hwf hext ha

/-- Settles O22: the writes of PACKB are one buffer of panels of NR lanes. -/
theorem packBStagesColumnPanels : Obligations.PackBStagesColumnPanels := by
  intro src dst col0 k0 nc kc s hwf hN hMR hNR hdivMR hdivNR hext hcols hsteps hsrc hdst hapart
  have hcheck : commandCheck s (.packB src dst col0 k0 nc kc) = .ok () :=
    packRawCheck_eq_ok.mpr ⟨packGeometry_eq_ok.mpr ⟨⟨hN, hMR, hNR⟩, ⟨hdivMR, hdivNR⟩,
      ⟨hext, Nat.mod_one _, Nat.mod_one _⟩, hcols, hsteps⟩, ⟨hsrc, hdst⟩, hapart⟩
  refine ⟨_, exec_of_commandCheck_ok hcheck, retiredWritingMemory_store s _, ?panels, ?frame⟩ <;>
    simp only [commandEffect, State.read_retire, packBWrites_eq]
  case panels => exact fun q kk l hq hkk hl => State.read_store_panelWrites hwf hq hkk hl
  case frame => exact fun a ha => State.read_store_panelWrites_outside hwf hext ha

/-- Settles O23: the writes of PACKA.P are two buffers of panels of MR lanes, the second apart from
the first. -/
theorem packAPackedStagesBothMasks : Obligations.PackAPackedStagesBothMasks := by
  intro sv ss dv ds row0 k0 mc kc s hwf hN hMR hNR hdivMR hdivNR hext hk0 hkc hrows hsteps
    hsv hss hdv hds hsources hmasks
  have hcheck : commandCheck s (.packAP sv ss dv ds row0 k0 mc kc) = .ok () :=
    packPackedCheck_eq_ok.mpr ⟨packGeometry_eq_ok.mpr ⟨⟨hN, hMR, hNR⟩, ⟨hdivMR, hdivNR⟩,
      ⟨hext, hk0, hkc⟩, hrows, hsteps⟩, ⟨hsv, hss, hdv, hds⟩, hmasks, by simpa using hsources⟩
  refine ⟨_, exec_of_commandCheck_ok hcheck, retiredWritingMemory_store s _, ?panels, ?frame⟩ <;>
    simp only [commandEffect, State.read_retire, packAPMaskWrites_eq]
  case panels =>
    exact fun p kk l hp hkk hl => State.read_store_panelWrites_pair hwf hext hmasks hp hkk hl
  case frame =>
    exact fun a hdv hds => State.read_store_panelWrites_pair_outside hwf hext hdv hds

/-- Settles O24: the writes of PACKB.P are two buffers of panels of NR lanes, the second apart from
the first. -/
theorem packBPackedStagesBothMasks : Obligations.PackBPackedStagesBothMasks := by
  intro sv ss dv ds col0 k0 nc kc s hwf hN hMR hNR hdivMR hdivNR hext hk0 hkc hcols hsteps
    hsv hss hdv hds hsources hmasks
  have hcheck : commandCheck s (.packBP sv ss dv ds col0 k0 nc kc) = .ok () :=
    packPackedCheck_eq_ok.mpr ⟨packGeometry_eq_ok.mpr ⟨⟨hN, hMR, hNR⟩, ⟨hdivMR, hdivNR⟩,
      ⟨hext, hk0, hkc⟩, hcols, hsteps⟩, ⟨hsv, hss, hdv, hds⟩, hmasks, by simpa using hsources⟩
  refine ⟨_, exec_of_commandCheck_ok hcheck, retiredWritingMemory_store s _, ?panels, ?frame⟩ <;>
    simp only [commandEffect, State.read_retire, packBPMaskWrites_eq]
  case panels =>
    exact fun q kk l hq hkk hl => State.read_store_panelWrites_pair hwf hext hmasks hq hkk hl
  case frame =>
    exact fun a hdv hds => State.read_store_panelWrites_pair_outside hwf hext hdv hds

end Sys2Proof.Machine
end

section
/-! The invariant's parts by name, and the tile of ACC loaded from and stored to DMEM
(10_state R24, 43_accumulator R172, R173). -/

namespace Sys2Proof.Machine

/-! ### The invariant by its parts (10_state R24, R26, 20_memory R50) -/

/-- The invariant but for the pending soft reset. -/
structure State.Legal (s : State) : Prop where
  rows : tileWidthLegal s.csrMR = true
  columns : tileWidthLegal s.csrNR = true
  status : s.statusLegal = true
  memory : s.memoryLegal = true

theorem State.inv_iff {s : State} :
    s.inv = true ↔ s.Legal ∧ (s.busy = false → s.srstPending = false) := by
  simp only [State.inv, Bool.and_eq_true, Bool.or_eq_true, Bool.not_eq_true']
  constructor
  · rintro ⟨⟨⟨⟨hrows, hcolumns⟩, hstatus⟩, hmemory⟩, hpending⟩
    exact ⟨⟨hrows, hcolumns, hstatus, hmemory⟩, fun hidle => by simpa [hidle] using hpending⟩
  · rintro ⟨⟨hrows, hcolumns, hstatus, hmemory⟩, hpending⟩
    refine ⟨⟨⟨⟨hrows, hcolumns⟩, hstatus⟩, hmemory⟩, ?_⟩
    cases hbusy : s.busy
    case false => exact .inr (hpending hbusy)
    case true => exact .inl rfl

theorem State.memoryLegal_iff {s : State} :
    s.memoryLegal = true ↔ Memory.wf s.dmem = true ∧ Memory.within s.dmemSize s.dmem = true ∧
      1 ≤ s.dmemSize ∧ s.dmemSize ≤ 2 ^ 32 := by
  simp only [State.memoryLegal, Bool.and_eq_true, decide_eq_true_eq, and_assoc]

theorem State.Legal.wf {s : State} (h : s.Legal) : Memory.wf s.dmem = true := by
  obtain ⟨hwf, _⟩ := State.memoryLegal_iff.mp h.memory
  exact hwf

theorem tileWidth_le_of_legal : ∀ m : BitVec 5, tileWidthLegal m = true → m.toNat ≤ 16 := by decide

/-! ### Cells of the active tile (10_state R27) -/

@[simp] theorem State.isActive_iff {s : State} {l j : Nat} :
    s.isActive l j = true ↔ l < s.csrMR.toNat ∧ j < s.csrNR.toNat := by
  simp only [State.isActive, Bool.and_eq_true, decide_eq_true_eq]

theorem State.accCell_setActive_retire (s : State) (f : Nat → Nat → Byte) {l j : Nat} (hl : l < 16)
    (hj : j < 16) :
    (s.setActive f).retire.accCell l j =
      if l < s.csrMR.toNat ∧ j < s.csrNR.toNat then f l j else s.accCell l j := by
  simp only [State.accCell_retire, State.accCell_setActive, hl, hj, and_self, if_true,
    State.isActive_iff]

/-! ### The tile in DMEM (43_accumulator R172, R173) -/

section
variable {s : State} {cbase row0 col0 : Nat}

theorem tileCheck_eq_ok :
    tileCheck s cbase row0 col0 = .ok () ↔
      (s.csrN ≠ 0 ∧ s.csrMR ≠ 0 ∧ s.csrNR ≠ 0) ∧
      (s.csrN.toNat % s.csrMR.toNat = 0 ∧ s.csrN.toNat % s.csrNR.toNat = 0) ∧
      (row0 + s.csrMR.toNat ≤ s.csrN.toNat ∧ col0 + s.csrNR.toNat ≤ s.csrN.toNat) ∧
      inDmem s.dmemSize cbase (s.csrN.toNat * s.csrN.toNat) = true := by
  simp only [tileCheck, require_bind_eq_ok, require_eq_ok, Bool.and_eq_true, decide_eq_true_eq,
    State.geometrySet_iff, State.tilesDivide_iff]

theorem mem_tstWrites {c : Host.Cell} :
    c ∈ tstWrites s cbase row0 col0 ↔ ∃ l < s.csrMR.toNat, ∃ j < s.csrNR.toNat,
      (tileAddr s cbase row0 col0 l j, s.accCell l j) = c :=
  mem_forLoop2

theorem mem_tstWrites_range (hrows : row0 + s.csrMR.toNat ≤ s.csrN.toNat)
    (hcols : col0 + s.csrNR.toNat ≤ s.csrN.toNat) {c : Host.Cell}
    (hc : c ∈ tstWrites s cbase row0 col0) :
    cbase ≤ c.1 ∧ c.1 < cbase + s.csrN.toNat * s.csrN.toNat := by
  obtain ⟨l, hl, j, hj, rfl⟩ := mem_tstWrites.mp hc
  exact ⟨Nat.le_add_right _ _, Nat.add_lt_add_left (cm_lt (by omega) (by omega)) cbase⟩

/-- A tile inside the matrix has an address of its own for each cell. -/
theorem State.read_store_tstWrites (hwf : Memory.wf s.dmem = true)
    (hrows : row0 + s.csrMR.toNat ≤ s.csrN.toNat) {l j : Nat} (hl : l < s.csrMR.toNat)
    (hj : j < s.csrNR.toNat) :
    (s.store (tstWrites s cbase row0 col0)).read (tileAddr s cbase row0 col0 l j) =
      s.accCell l j := by
  refine State.read_store_forLoop2 hwf (addr := tileAddr s cbase row0 col0)
    (fun l j l' j' hl _ hl' _ h => ?_) hl hj
  obtain ⟨hcol, hrow⟩ := digits_inj (by omega) (by omega) (Nat.add_left_cancel h)
  exact ⟨Nat.add_left_cancel hrow, Nat.add_left_cancel hcol⟩

theorem State.read_store_tstWrites_outside (hwf : Memory.wf s.dmem = true) {a : Nat}
    (ha : ∀ l j, l < s.csrMR.toNat → j < s.csrNR.toNat → a ≠ tileAddr s cbase row0 col0 l j) :
    (s.store (tstWrites s cbase row0 col0)).read a = s.read a := by
  apply State.read_store_of_notMem hwf
  intro c hc
  obtain ⟨l, hl, j, hj, rfl⟩ := mem_tstWrites.mp hc
  exact (ha l j hl hj).symm

end

/-- Settles O27: TLD replaces the active cells by the bytes at their addresses. -/
theorem tldLoadsTheActiveTile : Obligations.TldLoadsTheActiveTile := by
  intro cbase row0 col0 s hN hMR hNR hdivMR hdivNR hrows hcols hrange
  have hcheck : commandCheck s (.tld cbase row0 col0) = .ok () :=
    tileCheck_eq_ok.mpr ⟨⟨hN, hMR, hNR⟩, ⟨hdivMR, hdivNR⟩, ⟨hrows, hcols⟩, hrange⟩
  refine ⟨_, exec_of_commandCheck_ok hcheck, ?frame, ?cells⟩ <;> simp only [commandEffect]
  case frame => exact retiredWritingAcc_setActive s _
  case cells => exact fun l j hl hj => s.accCell_setActive_retire _ hl hj

/-- Settles O28: the active cells have distinct addresses, and TST writes no other. -/
theorem tstStoresTheActiveTile : Obligations.TstStoresTheActiveTile := by
  intro cbase row0 col0 s hwf hN hMR hNR hdivMR hdivNR hrows hcols hrange
  have hcheck : commandCheck s (.tst cbase row0 col0) = .ok () :=
    tileCheck_eq_ok.mpr ⟨⟨hN, hMR, hNR⟩, ⟨hdivMR, hdivNR⟩, ⟨hrows, hcols⟩, hrange⟩
  exact ⟨_, exec_of_commandCheck_ok hcheck, retiredWritingMemory_store s _,
    fun l j hl hj => State.read_store_tstWrites hwf hrows hl hj,
    fun a ha => State.read_store_tstWrites_outside hwf ha⟩

/-- A tile's check and addresses only see the configuration registers and DMEM_SIZE. -/
theorem tileCheck_congr {s u : State} (hN : u.csrN = s.csrN) (hMR : u.csrMR = s.csrMR)
    (hNR : u.csrNR = s.csrNR) (hsize : u.dmemSize = s.dmemSize) (cbase row0 col0 : Nat) :
    tileCheck u cbase row0 col0 = tileCheck s cbase row0 col0 := by
  simp only [tileCheck, State.geometrySet, State.tilesDivide, hN, hMR, hNR, hsize]

/-- Settles O29: TLD checks what TST checked, none of which TST or ACC changes, and reads each
active cell where TST stored it. -/
theorem tstThenTldRestoresTheTile : Obligations.TstThenTldRestoresTheTile := by
  intro cbase row0 col0 s t u v hinv htst hretired hu htld
  obtain ⟨hcheck, rfl⟩ := exec_of_retired htst hretired
  have hN : u.csrN = s.csrN := by rw [hu]; rfl
  have hMR : u.csrMR = s.csrMR := by rw [hu]; rfl
  have hNR : u.csrNR = s.csrNR := by rw [hu]; rfl
  have hsize : u.dmemSize = s.dmemSize := by rw [hu]; rfl
  have hread : ∀ a, u.read a =
      (s.store (tstWrites s cbase.toNat row0.toNat col0.toNat)).read a := by
    intro a; rw [hu]; rfl
  have hload : commandCheck u (.tld cbase row0 col0) = .ok () :=
    (tileCheck_congr hN hMR hNR hsize _ _ _).trans hcheck
  obtain rfl := Host.Outcome.next.inj ((exec_of_commandCheck_ok hload).symm.trans htld)
  obtain ⟨hlegal, _⟩ := State.inv_iff.mp hinv
  obtain ⟨_, _, ⟨hrows, _⟩, _⟩ := tileCheck_eq_ok.mp hcheck
  obtain ⟨hloaded, _⟩ := retiredCleanly_commandEffect (.tld cbase row0 col0) u
  refine ⟨hloaded, fun l j hl hj => ?_⟩
  have hl16 := tileWidth_le_of_legal _ hlegal.rows
  have hj16 := tileWidth_le_of_legal _ hlegal.columns
  simp only [commandEffect]
  rw [State.accCell_setActive_retire _ _ (by omega) (by omega), hMR, hNR, if_pos ⟨hl, hj⟩, hread,
    tileAddr, hN]
  exact State.read_store_tstWrites hlegal.wf hrows hl hj

end Sys2Proof.Machine
end

section
/-! The micro-kernel as byte additions to the active cells, one sum per cell, from which its result,
the agreement of its two strategies and the order of its tiles follow (44_microkernel,
43_accumulator R174). -/

namespace Sys2Proof.Machine

/-! ### Steps as one sum (44_microkernel R191, R196) -/

theorem foldl_add_wrap8 (f : Nat → Int) (steps : List Nat) (cell : Byte) :
    steps.foldl (fun acc k => acc + wrap8 (f k)) cell = cell + wrap8 (steps.map f).sum := by
  induction steps generalizing cell with
  | nil => simp [wrap8]
  | cons k steps ih =>
    rw [List.foldl_cons, ih, List.map_cons, List.sum_cons, wrap8_add, BitVec.add_assoc]

theorem sum_map_range_add (f : Nat → Int) (m n : Nat) :
    ((List.range (m + n)).map f).sum =
      ((List.range m).map f).sum + ((List.range n).map fun k => f (m + k)).sum := by
  rw [List.range_add, List.map_append, List.sum_append, List.map_map]
  rfl

theorem sum_map_range_mul (f : Nat → Int) (w n : Nat) :
    ((List.range (w * n)).map f).sum =
      ((List.range n).map fun k => ((List.range w).map fun b => f (w * k + b)).sum).sum := by
  induction n with
  | zero => rfl
  | succ n ih =>
    rw [Nat.mul_succ, sum_map_range_add, ih, sum_map_range_add _ n 1]
    simp

/-- The popcount difference of a packed step is the sum of its ternary products
(44_microkernel R194). -/
theorem popcountPartial_eq (av aSgn bv bSgn : Byte) :
    popcountPartial av aSgn bv bSgn = ((List.range 8).map fun b =>
      tdec (av.getLsbD b) (aSgn.getLsbD b) * tdec (bv.getLsbD b) (bSgn.getLsbD b)).sum := by
  rw [popcountIdentity, popcountPartial, commonMask, signDiffMask, Nat.shiftLeft_eq]
  push_cast
  ring

section
variable (s : State)

/-- What MKR adds to a cell, exactly (44_microkernel R191). -/
def mkrSum (a b kc l j : Nat) : Int :=
  ((List.range kc).map fun kk =>
    sext8 (s.read (a + kk * s.csrMR.toNat + l)) *
      sext8 (s.read (b + kk * s.csrNR.toNat + j))).sum

/-- What MKP adds to a cell, exactly (44_microkernel R194, R196). -/
def mkpSum (aVal aSgn bVal bSgn kc l j : Nat) : Int :=
  ((List.range (kc / 8)).map fun kk => ((List.range 8).map fun b =>
    tdec ((s.read (aVal + kk * s.csrMR.toNat + l)).getLsbD b)
        ((s.read (aSgn + kk * s.csrMR.toNat + l)).getLsbD b) *
      tdec ((s.read (bVal + kk * s.csrNR.toNat + j)).getLsbD b)
        ((s.read (bSgn + kk * s.csrNR.toNat + j)).getLsbD b)).sum).sum

theorem mkrCell_eq (a b kc l j : Nat) :
    mkrCell s a b kc l j = s.accCell l j + wrap8 (mkrSum s a b kc l j) := by
  simp only [mkrCell, macStep_eq, ← mulWrap_eq, mulWrap]
  exact foldl_add_wrap8 _ _ _

theorem mkpCell_eq (aVal aSgn bVal bSgn kc l j : Nat) :
    mkpCell s aVal aSgn bVal bSgn kc l j =
      s.accCell l j + wrap8 (mkpSum s aVal aSgn bVal bSgn kc l j) := by
  simp only [mkpCell, popcountStep_eq, popcountPartial_eq]
  exact foldl_add_wrap8 _ _ _

theorem add_wrap8_eq (cell : Byte) (x : Int) : cell + wrap8 x = wrap8 (sext8 cell + x) := by
  rw [wrap8_add, wrap8_sext8]

/-! ### The effect of a kernel command (43_accumulator R174) -/

/-- The active cells with `d` added, the effect of one reduction tile. -/
def State.addTile (d : Nat → Nat → Byte) : State := s.setActive fun l j => s.accCell l j + d l j

theorem commandEffect_mkr (a b kc : Word) :
    commandEffect s (.mkr a b kc) =
      s.addTile fun l j => wrap8 (mkrSum s a.toNat b.toNat kc.toNat l j) := by
  simp only [commandEffect, mkrCell_eq, State.addTile]

theorem commandEffect_mkp (aVal aSgn bVal bSgn kc : Word) :
    commandEffect s (.mkp aVal aSgn bVal bSgn kc) = s.addTile fun l j =>
      wrap8 (mkpSum s aVal.toNat aSgn.toNat bVal.toNat bSgn.toNat kc.toNat l j) := by
  simp only [commandEffect, mkpCell_eq, State.addTile]

theorem retiredWritingAcc_addTile (d : Nat → Nat → Byte) :
    RetiredWritingAcc s (s.addTile d).retire := retiredWritingAcc_setActive s _

theorem State.accCell_addTile_retire (d : Nat → Nat → Byte) {l j : Nat} (hl : l < 16)
    (hj : j < 16) :
    (s.addTile d).retire.accCell l j =
      if l < s.csrMR.toNat ∧ j < s.csrNR.toNat then s.accCell l j + d l j else s.accCell l j :=
  s.accCell_setActive_retire _ hl hj

theorem State.addTile_eq (d : Nat → Nat → Byte) :
    s.addTile d = { s with acc := (s.addTile d).acc } := s.setActive_eq _

/-- Only the active cells of `d` reach the state. -/
theorem State.addTile_congr {d e : Nat → Nat → Byte}
    (h : ∀ l j, l < s.csrMR.toNat → j < s.csrNR.toNat → d l j = e l j) :
    s.addTile d = s.addTile e := by
  have hacc : (s.addTile d).acc = (s.addTile e).acc := by
    refine State.acc_ext (s.addTile d).retire (s.addTile e).retire fun l j hl hj => ?_
    rw [s.accCell_addTile_retire d hl hj, s.accCell_addTile_retire e hl hj]
    split
    case isTrue hactive =>
      obtain ⟨hrow, hcol⟩ := hactive
      rw [h l j hrow hcol]
    case isFalse => rfl
  calc s.addTile d = { s with acc := (s.addTile d).acc } := s.addTile_eq d
    _ = { s with acc := (s.addTile e).acc } := by rw [hacc]
    _ = s.addTile e := (s.addTile_eq e).symm

variable {s}

theorem State.tileSet_iff : s.tileSet = true ↔ s.csrMR ≠ 0 ∧ s.csrNR ≠ 0 := by
  simp only [State.tileSet, Bool.and_eq_true, bne_iff_ne]

theorem mkrCheck_eq_ok {a b kc : Nat} :
    mkrCheck s a b kc = .ok () ↔ (s.csrMR ≠ 0 ∧ s.csrNR ≠ 0) ∧
      inDmem s.dmemSize a (kc * s.csrMR.toNat) = true ∧
      inDmem s.dmemSize b (kc * s.csrNR.toNat) = true := by
  simp only [mkrCheck, require_bind_eq_ok, require_eq_ok, Bool.and_eq_true, State.tileSet_iff]

theorem mkpCheck_eq_ok {aVal aSgn bVal bSgn kc : Nat} :
    mkpCheck s aVal aSgn bVal bSgn kc = .ok () ↔ (s.csrMR ≠ 0 ∧ s.csrNR ≠ 0) ∧ kc % 8 = 0 ∧
      inDmem s.dmemSize aVal (kc / 8 * s.csrMR.toNat) = true ∧
      inDmem s.dmemSize aSgn (kc / 8 * s.csrMR.toNat) = true ∧
      inDmem s.dmemSize bVal (kc / 8 * s.csrNR.toNat) = true ∧
      inDmem s.dmemSize bSgn (kc / 8 * s.csrNR.toNat) = true := by
  simp only [mkpCheck, require_bind_eq_ok, require_eq_ok, Bool.and_eq_true, beq_iff_eq,
    State.tileSet_iff, and_assoc]

end

/-! ### The results of MKR and MKP (44_microkernel R191, R196) -/

/-- Settles O30: MKR adds `mkrSum` to each active cell. -/
theorem mkrAddsTheDotProducts : Obligations.MkrAddsTheDotProducts := by
  intro a b kc s hMR hNR ha hb
  have hcheck : commandCheck s (.mkr a b kc) = .ok () := mkrCheck_eq_ok.mpr ⟨⟨hMR, hNR⟩, ha, hb⟩
  refine ⟨_, exec_of_commandCheck_ok hcheck, ?frame, ?cells⟩ <;> rw [commandEffect_mkr]
  case frame => exact retiredWritingAcc_addTile s _
  case cells =>
    intro l j hl hj
    rw [State.accCell_addTile_retire s _ hl hj, add_wrap8_eq]
    rfl

/-- Settles O31: MKP adds `mkpSum` to each active cell. -/
theorem mkpAddsTheTernaryDotProducts : Obligations.MkpAddsTheTernaryDotProducts := by
  intro aVal aSgn bVal bSgn kc s hMR hNR hkc haVal haSgn hbVal hbSgn
  have hcheck : commandCheck s (.mkp aVal aSgn bVal bSgn kc) = .ok () :=
    mkpCheck_eq_ok.mpr ⟨⟨hMR, hNR⟩, hkc, haVal, haSgn, hbVal, hbSgn⟩
  refine ⟨_, exec_of_commandCheck_ok hcheck, ?frame, ?cells⟩ <;> rw [commandEffect_mkp]
  case frame => exact retiredWritingAcc_addTile s _
  case cells =>
    intro l j hl hj
    rw [State.accCell_addTile_retire s _ hl hj, add_wrap8_eq]
    rfl

/-- Settles O34: step 8·kk + bit of the raw panels is bit `bit` of packed step kk, so both commands
add the same sum. -/
theorem packedAndRawKernelsAgree : Obligations.PackedAndRawKernelsAgree := by
  intro a b aVal aSgn bVal bSgn kc s hMR hNR hkc ha hb haVal haSgn hbVal hbSgn hdecA hdecB
  have hmkp : commandCheck s (.mkp aVal aSgn bVal bSgn kc) = .ok () :=
    mkpCheck_eq_ok.mpr ⟨⟨hMR, hNR⟩, hkc, haVal, haSgn, hbVal, hbSgn⟩
  have hmkr : commandCheck s (.mkr a b kc) = .ok () := mkrCheck_eq_ok.mpr ⟨⟨hMR, hNR⟩, ha, hb⟩
  refine exec_congr (hmkp.trans hmkr.symm) ?_
  rw [commandEffect_mkp, commandEffect_mkr]
  refine s.addTile_congr fun l j hl hj => congrArg wrap8 ?_
  rw [mkrSum, ← Nat.mul_div_cancel' (Nat.dvd_of_mod_eq_zero hkc), sum_map_range_mul, mkpSum,
    Nat.mul_div_cancel' (Nat.dvd_of_mod_eq_zero hkc)]
  refine congrArg List.sum (List.map_congr_left fun kk hkk => ?_)
  refine congrArg List.sum (List.map_congr_left fun bit hbit => ?_)
  rw [List.mem_range] at hkk hbit
  rw [hdecA kk bit l hkk hbit hl, hdecB kk bit j hkk hbit hj]

/-! ### The order of reduction tiles (43_accumulator R174) -/

/-- The two states agree on what a kernel command reads besides ACC. -/
structure SameOperands (s t : State) : Prop where
  dmem : t.dmem = s.dmem
  dmemSize : t.dmemSize = s.dmemSize
  csrMR : t.csrMR = s.csrMR
  csrNR : t.csrNR = s.csrNR

theorem sameOperands_refl (s : State) : SameOperands s s := ⟨rfl, rfl, rfl, rfl⟩

theorem sameOperands_addTile_retire (s : State) (d : Nat → Nat → Byte) :
    SameOperands s (s.addTile d).retire := by
  constructor <;> simp [State.addTile]

theorem mkrSum_congr {s t : State} (h : SameOperands s t) (a b kc l j : Nat) :
    mkrSum t a b kc l j = mkrSum s a b kc l j := by
  simp only [mkrSum, State.read, h.dmem, h.csrMR, h.csrNR]

theorem mkpSum_congr {s t : State} (h : SameOperands s t) (aVal aSgn bVal bSgn kc l j : Nat) :
    mkpSum t aVal aSgn bVal bSgn kc l j = mkpSum s aVal aSgn bVal bSgn kc l j := by
  simp only [mkpSum, State.read, h.dmem, h.csrMR, h.csrNR]

/-- A command that adds the same tile to every state with the same operands as `s`, and is checked
alike there. -/
def AddsTile (s : State) (i : Instr) (d : Nat → Nat → Byte) : Prop :=
  ∀ t, SameOperands s t → commandCheck t i = commandCheck s i ∧ commandEffect t i = t.addTile d

theorem addsTile_mkr (s : State) (a b kc : Word) :
    AddsTile s (.mkr a b kc) fun l j => wrap8 (mkrSum s a.toNat b.toNat kc.toNat l j) := by
  intro t ht
  simp only [commandEffect_mkr, mkrSum_congr ht, commandCheck, mkrCheck, State.tileSet,
    ht.dmemSize, ht.csrMR, ht.csrNR, and_self]

theorem addsTile_mkp (s : State) (aVal aSgn bVal bSgn kc : Word) :
    AddsTile s (.mkp aVal aSgn bVal bSgn kc) fun l j =>
      wrap8 (mkpSum s aVal.toNat aSgn.toNat bVal.toNat bSgn.toNat kc.toNat l j) := by
  intro t ht
  simp only [commandEffect_mkp, mkpSum_congr ht, commandCheck, mkpCheck, State.tileSet,
    ht.dmemSize, ht.csrMR, ht.csrNR, and_self]

theorem exists_addsTile (s : State) {i : Instr}
    (hi : i.mnemonic ∈ ([.mkr, .mkp] : List Mnemonic)) : ∃ d, AddsTile s i d := by
  cases i
  case mkr a b kc => exact ⟨_, addsTile_mkr s a b kc⟩
  case mkp aVal aSgn bVal bSgn kc => exact ⟨_, addsTile_mkp s aVal aSgn bVal bSgn kc⟩
  all_goals simp [Instr.mnemonic] at hi

theorem AddsTile.eq_of_exec {s t u : State} {i : Instr} {d : Nat → Nat → Byte}
    (hi : AddsTile s i d) (ht : SameOperands s t) (hcheck : commandCheck s i = .ok ())
    (hexec : exec i t = .next u) : u = (t.addTile d).retire := by
  obtain ⟨hsame, heffect⟩ := hi t ht
  rw [exec_of_commandCheck_ok (hsame.trans hcheck), heffect] at hexec
  exact (Host.Outcome.next.inj hexec).symm

theorem State.accCell_addTile_addTile (s : State) (d e : Nat → Nat → Byte) {l j : Nat}
    (hl : l < 16) (hj : j < 16) :
    ((s.addTile d).retire.addTile e).retire.accCell l j =
      if l < s.csrMR.toNat ∧ j < s.csrNR.toNat then s.accCell l j + (d l j + e l j)
      else s.accCell l j := by
  obtain ⟨_, _, hMR, hNR⟩ := sameOperands_addTile_retire s d
  rw [State.accCell_addTile_retire _ e hl hj, State.accCell_addTile_retire _ d hl hj, hMR, hNR]
  split
  case isTrue => rw [BitVec.add_assoc]
  case isFalse => rfl

theorem RetiredWritingAcc.trans_eq {s t u : State} (h : RetiredWritingAcc s t)
    (h' : RetiredWritingAcc t u) :
    u = { s with retired := s.retired + 1 + 1, busy := false, acc := u.acc } := by
  obtain ⟨acc, rfl⟩ : ∃ acc, t = { s with
    retired := s.retired + 1, busy := false, acc := acc } := ⟨_, h⟩
  exact h'

/-- Two tiles added, in either order: RETIRED + 2 and the same cells. -/
theorem State.addTile_comm (s : State) (d e : Nat → Nat → Byte) :
    ((s.addTile d).retire.addTile e).retire = ((s.addTile e).retire.addTile d).retire := by
  have hacc : ((s.addTile d).retire.addTile e).retire.acc =
      ((s.addTile e).retire.addTile d).retire.acc := by
    refine State.acc_ext _ _ fun l j hl hj => ?_
    rw [s.accCell_addTile_addTile d e hl hj, s.accCell_addTile_addTile e d hl hj,
      BitVec.add_comm (d l j)]
  rw [(retiredWritingAcc_addTile s d).trans_eq (retiredWritingAcc_addTile _ e),
    (retiredWritingAcc_addTile s e).trans_eq (retiredWritingAcc_addTile _ d), hacc]

/-- Settles O35: neither tile changes what the other checks or adds, and addition commutes. -/
theorem reductionTilesCommute : Obligations.ReductionTilesCommute := by
  intro i j s t u t' u' hi hj hit hretired hju hretired' hjt' hiu'
  obtain ⟨d, haddI⟩ := exists_addsTile s hi
  obtain ⟨e, haddJ⟩ := exists_addsTile s hj
  obtain ⟨hcheckI, _⟩ := exec_of_retired hit hretired
  obtain ⟨hcheckJt, _⟩ := exec_of_retired hju hretired'
  have ht := haddI.eq_of_exec (sameOperands_refl s) hcheckI hit
  have hsame : SameOperands s t := ht ▸ sameOperands_addTile_retire s d
  obtain ⟨halike, _⟩ := haddJ t hsame
  have hcheckJ := halike.symm.trans hcheckJt
  have ht' := haddJ.eq_of_exec (sameOperands_refl s) hcheckJ hjt'
  have hsame' : SameOperands s t' := ht' ▸ sameOperands_addTile_retire s e
  have hu := haddJ.eq_of_exec hsame hcheckJ hju
  have hu' := haddI.eq_of_exec hsame' hcheckI hiu'
  rw [hu, hu', ht, ht']
  exact s.addTile_comm d e

/-! ### A reduction in two tiles (43_accumulator R174) -/

theorem mkrSum_add (s : State) (a b kc kc' l j : Nat) :
    mkrSum s a b (kc + kc') l j = mkrSum s a b kc l j +
      mkrSum s (a + kc * s.csrMR.toNat) (b + kc * s.csrNR.toNat) kc' l j := by
  simp only [mkrSum, sum_map_range_add, Nat.add_mul, Nat.add_assoc]

theorem mkpSum_add (s : State) (aVal aSgn bVal bSgn kc' l j : Nat) {kc : Nat} (hkc : kc % 8 = 0) :
    mkpSum s aVal aSgn bVal bSgn (kc + kc') l j = mkpSum s aVal aSgn bVal bSgn kc l j +
      mkpSum s (aVal + kc / 8 * s.csrMR.toNat) (aSgn + kc / 8 * s.csrMR.toNat)
        (bVal + kc / 8 * s.csrNR.toNat) (bSgn + kc / 8 * s.csrNR.toNat) kc' l j := by
  have hdiv : (kc + kc') / 8 = kc / 8 + kc' / 8 := by omega
  simp only [mkpSum, hdiv, sum_map_range_add, Nat.add_mul, Nat.add_assoc]

/-- Two tiles added one after the other leave the ACC of their sum. -/
theorem State.acc_addTile_addTile (s : State) {d e f : Nat → Nat → Byte}
    (h : ∀ l j, f l j = d l j + e l j) :
    ((s.addTile d).retire.addTile e).retire.acc = (s.addTile f).retire.acc := by
  refine State.acc_ext _ _ fun l j hl hj => ?_
  rw [s.accCell_addTile_addTile d e hl hj, s.accCell_addTile_retire f hl hj, h]

/-- Settles O36: the sum over the whole reduction is that over its first tile and that over its
second, whose panels start where the first tile's end. -/
theorem splitReductionAccumulates : Obligations.SplitReductionAccumulates := by
  constructor
  · intro a b kc a' b' kc' whole s t u v ha hb hwhole ht hretired hu hretired' hv hretired''
    obtain ⟨_, rfl⟩ := exec_of_retired ht hretired
    obtain ⟨_, rfl⟩ := exec_of_retired hu hretired'
    obtain ⟨_, rfl⟩ := exec_of_retired hv hretired''
    simp only [commandEffect_mkr]
    refine s.acc_addTile_addTile fun l j => ?_
    rw [hwhole, mkrSum_add, wrap8_add, ha, hb, mkrSum_congr (sameOperands_addTile_retire s _)]
  · intro aVal aSgn bVal bSgn kc aVal' aSgn' bVal' bSgn' kc' whole s t u v haVal haSgn hbVal hbSgn
      hwhole ht hretired hu hretired' hv hretired''
    obtain ⟨hcheck, rfl⟩ := exec_of_retired ht hretired
    obtain ⟨_, rfl⟩ := exec_of_retired hu hretired'
    obtain ⟨_, rfl⟩ := exec_of_retired hv hretired''
    obtain ⟨_, hkc, _⟩ := mkpCheck_eq_ok.mp hcheck
    simp only [commandEffect_mkp]
    refine s.acc_addTile_addTile fun l j => ?_
    rw [hwhole, mkpSum_add s _ _ _ _ _ _ _ hkc, wrap8_add, haVal, haSgn, hbVal, hbSgn,
      mkpSum_congr (sameOperands_addTile_retire s _)]

end Sys2Proof.Machine
end

section
/-! What the three DOTR commands write: the wrapped lane products and the wrapped sum of the exact
ones (45_rowdot R211 to R215). -/

namespace Sys2Proof.Machine

/-! ### The lanes' sum and frame (45_rowdot R215) -/

/-- Wrapping the terms of a sum does not change its low byte. -/
theorem wrap8_sum_wrap8 (f : Nat → Int) (lanes : List Nat) :
    wrap8 (lanes.map fun i => sext8 (wrap8 (f i))).sum = wrap8 (lanes.map f).sum := by
  induction lanes with
  | nil => rfl
  | cons i lanes ih =>
    rw [List.map_cons, List.sum_cons, wrap8_add, ih, wrap8_sext8, ← wrap8_add, List.map_cons,
      List.sum_cons]

theorem laneSum_laneProducts (w : Lanes) (f : Nat → Int) :
    laneSum (laneProducts w fun i => wrap8 (f i)) =
      wrap8 ((List.range (laneCount w)).map f).sum := by
  rw [laneSum, laneProducts, List.map_map]
  exact wrap8_sum_wrap8 f _

theorem mem_laneWrites_range {w : Lanes} {dst : Nat} {lane : Nat → Byte} {c : Host.Cell}
    (hc : c ∈ laneWrites w dst lane) : dst ≤ c.1 ∧ c.1 < dst + laneCount w := by
  obtain ⟨i, hi, rfl⟩ := mem_laneWrites.mp hc
  exact ⟨Nat.le_add_right _ _, Nat.add_lt_add_left hi dst⟩

theorem State.read_storeLanes_outside {s : State} (hwf : Memory.wf s.dmem = true) {w : Lanes}
    {dst : Nat} {lane : Nat → Byte} {x : Nat} (hx : ¬(dst ≤ x ∧ x < dst + laneCount w)) :
    (s.storeLanes w dst lane).read x = s.read x :=
  State.read_store_outside hwf (fun _ => mem_laneWrites_range) hx

/-- What a command leaves whose effect is lanes with exact values `f`, wrapped. -/
theorem exec_of_storeLanes {i : Instr} {s : State} {w : Lanes} {dst : Nat} {f : Nat → Int}
    (hwf : Memory.wf s.dmem = true) (hcheck : commandCheck s i = .ok ())
    (heffect : commandEffect s i = s.storeLanes w dst fun k => wrap8 (f k)) :
    ∃ t, exec i s = .next t ∧ RetiredWritingDot s t ∧
      (∀ k, k < laneCount w → t.read (dst + k) = wrap8 (f k)) ∧
      t.dotres = wrap8 ((List.range (laneCount w)).map f).sum ∧
      (∀ x, ¬(dst ≤ x ∧ x < dst + laneCount w) → t.read x = s.read x) := by
  refine ⟨_, heffect ▸ exec_of_commandCheck_ok hcheck, retiredWritingDot_storeLanes s w dst _,
    fun k hk => State.read_storeLanes hwf hk, laneSum_laneProducts w f,
    fun x hx => State.read_storeLanes_outside hwf hx⟩

/-! ### The checks (45_rowdot R211, R212) -/

theorem dotrMaskCheck_eq_ok {s : State} {w : Lanes} {a dst : Nat} :
    dotrMaskCheck s w a dst = .ok () ↔
      (inDmem s.dmemSize a (laneCount w) = true ∧ inDmem s.dmemSize dst (laneCount w) = true) ∧
      overlaps dst (laneCount w) a (laneCount w) = false := by
  simp only [dotrMaskCheck, require_bind_eq_ok, require_eq_ok, Bool.and_eq_true, Bool.not_eq_true']

theorem dotrNCheck_eq_ok {s : State} {w : Lanes} {a b dst : Nat} :
    dotrNCheck s w a b dst = .ok () ↔
      (inDmem s.dmemSize a (laneCount w) = true ∧ inDmem s.dmemSize b (laneCount w) = true ∧
        inDmem s.dmemSize dst (laneCount w) = true) ∧
      overlaps dst (laneCount w) a (laneCount w) = false ∧
      overlaps dst (laneCount w) b (laneCount w) = false := by
  simp only [dotrNCheck, require_bind_eq_ok, require_eq_ok, Bool.and_eq_true, Bool.not_eq_true',
    and_assoc]

/-! ### The commands (45_rowdot R211 to R214) -/

/-- Settles O37: a lane of DOTR.N is the wrapped product of its two bytes. -/
theorem dotrNWritesProductsAndSum : Obligations.DotrNWritesProductsAndSum := by
  intro w a b dst s hwf ha hb hdst haparta hapartb
  exact exec_of_storeLanes (i := .dotrN w a b dst) hwf
    (dotrNCheck_eq_ok.mpr ⟨⟨ha, hb, hdst⟩, haparta, hapartb⟩) rfl

/-- Settles O38: DOTR.T is DOTR.S on every state, and a lane of DOTR.S is the wrapped product with
the decoded pair of mask bits. -/
theorem maskDotsWriteProductsAndSum : Obligations.MaskDotsWriteProductsAndSum := by
  intro w a vmask smask dst s i hi hwf ha hdst hapart
  have hexec : exec i s = exec (.dotrS w a vmask smask dst) s := by
    obtain rfl | rfl := List.mem_pair.mp hi
    · rfl
    · exact (exec_dotrS_eq_dotrT w a vmask smask dst s).symm
  rw [hexec]
  exact exec_of_storeLanes (i := .dotrS w a vmask smask dst) hwf
    (dotrMaskCheck_eq_ok.mpr ⟨⟨ha, hdst⟩, hapart⟩)
    (State.storeLanes_congr fun _ _ => shiftedLane_eq _ _ _)

end Sys2Proof.Machine
end

section
/-! One step of the machine, the BLOCK's turn or the HOST's: what each can do, said once
(00_scope R9, 20_memory R55, R60 to R63, 60_exceptions R241, R242). -/

namespace Sys2Proof.Machine

/-! ### Who moves (00_scope R9) -/

theorem step_of_access {s : State} {a : HostAccess} (h : s.host.head? = some (.access a)) :
    step s = .next (s.turnTaken.hostAccess a) := by
  obtain ⟨rest, hhost⟩ := List.head?_eq_some_iff.mp h
  simp [step, State.turnTaken, hhost]

theorem step_of_hostWaits {s : State} (h : s.hostWaits = true) :
    step s = s.turnTaken.blockStep := by
  unfold State.hostWaits at h
  split at h
  case h_1 hhost =>
    have hsame : s.turnTaken = s := by
      obtain ⟨⟩ := s
      simp_all [State.turnTaken]
    simp [step, hhost, hsame]
  case h_2 hhost => simp [step, State.turnTaken, hhost]
  case h_3 => cases h

theorem hostWaits_or_access (s : State) :
    s.hostWaits = true ∨ ∃ a, s.host.head? = some (.access a) := by
  unfold State.hostWaits
  split <;> simp [*]

/-! ### The BLOCK's turn (20_memory R55, 70_reset_and_hazards R262) -/

theorem State.blockStep_idle {s : State} (h : s.busy = false) : s.blockStep = .next s := by
  simp [State.blockStep, h]

theorem State.blockStep_busy {s t : State} (hbusy : s.busy = true)
    (hrun : s.runCommand = .next t) : s.blockStep = .next t.applyPendingReset := by
  simp [State.blockStep, hbusy, hrun]

/-- Running the descriptor in CMD always ends, by a fault or by a command that passed its checks. -/
theorem State.runCommand_outcome (s : State) :
    (∃ c, s.runCommand = .next (s.raise c)) ∨
      ∃ i, commandCheck s i = .ok () ∧ s.runCommand = .next (commandEffect s i).retire := by
  cases hdec : decodeControl s.cmd[0] with
  | error c => exact .inl ⟨c, State.runCommand_of_decodeControl_error hdec⟩
  | ok m =>
    rw [State.runCommand_of_decodeControl_ok hdec]
    obtain ⟨c, _, hfault⟩ | ⟨hcheck, hdone⟩ := exec_cases (operands m s.cmd) s
    · exact .inl ⟨c, hfault⟩
    · exact .inr ⟨_, hcheck, hdone⟩

theorem State.exists_runCommand_eq (s : State) : ∃ t, s.runCommand = .next t := by
  obtain ⟨_, h⟩ | ⟨_, _, h⟩ := s.runCommand_outcome
  · exact ⟨_, h⟩
  · exact ⟨_, h⟩

theorem State.exists_blockStep_eq (s : State) : ∃ t, s.blockStep = .next t := by
  cases hbusy : s.busy
  case false => exact ⟨s, State.blockStep_idle hbusy⟩
  case true =>
    obtain ⟨t, hrun⟩ := s.exists_runCommand_eq
    exact ⟨_, State.blockStep_busy hbusy hrun⟩

/-- Settles O4: a host access is a function, and the block's turn always ends. -/
theorem everyStateHasNextState : Obligations.EveryStateHasNextState := by
  intro s
  obtain hwaits | ⟨a, haccess⟩ := hostWaits_or_access s
  · rw [step_of_hostWaits hwaits]
    exact s.turnTaken.exists_blockStep_eq
  · exact ⟨_, step_of_access haccess⟩

/-- Settles O3: the host's event decides the turn, and the block's idle turn is the identity. -/
theorem hostAccessOrIdleTurnIsOneStep : Obligations.HostAccessOrIdleTurnIsOneStep :=
  fun _ => ⟨fun _ => step_of_access, fun hwaits hidle =>
    (step_of_hostWaits hwaits).trans (State.blockStep_idle hidle)⟩

theorem step_of_runCommand {s t : State} (hwaits : s.hostWaits = true) (hbusy : s.busy = true)
    (hrun : s.turnTaken.runCommand = .next t) : step s = .next t.applyPendingReset :=
  (step_of_hostWaits hwaits).trans (State.blockStep_busy hbusy hrun)

theorem State.runCommand_of_decode_ok {s : State} {i : Instr} (h : decode s.cmd = .ok i) :
    s.runCommand = exec i s := by
  simp [State.runCommand, h]

/-- Settles O1: the block's turn runs the decoded command, and then the reset that waited. -/
theorem stepRunsDecodedCommand : Obligations.StepRunsDecodedCommand := by
  intro s t i hwaits hbusy hdecode hexec
  exact step_of_runCommand hwaits hbusy
    ((State.runCommand_of_decode_ok (s := s.turnTaken) hdecode).trans hexec)

/-! ### What every command keeps (20_memory R55, 60_exceptions R236) -/

/-- What an outcome of `exec` shares with the state before it. -/
theorem exec_keeps {i : Instr} {s t : State} (h : exec i s = .next t) :
    t.cmd = s.cmd ∧ t.herr = s.herr ∧ t.dmemSize = s.dmemSize ∧ t.srstPending = s.srstPending := by
  obtain ⟨c, _, hfault⟩ | ⟨_, hdone⟩ := exec_cases i s
  · obtain rfl := Host.Outcome.next.inj (hfault.symm.trans h)
    simp
  · obtain rfl := Host.Outcome.next.inj (hdone.symm.trans h)
    obtain ⟨⟨_, _, hherr, _⟩, hcmd, hsize, hpending, _⟩ := commandEffect_keeps i s
    exact ⟨hcmd, hherr, hsize, hpending⟩

theorem State.applyPendingReset_of_none {s : State} (h : s.srstPending = false) :
    s.applyPendingReset = s := by
  simp [State.applyPendingReset, h]

theorem State.applyPendingReset_of_pending {s : State} (h : s.srstPending = true) :
    s.applyPendingReset = s.resetRegisters := by
  simp [State.applyPendingReset, h]

theorem decode_of_decodeTableWord {nbits w : Nat} {i : Instr}
    (h : decodeTableWord nbits w = some i) : decode (descriptorOfBits nbits w) = .ok i := by
  unfold decodeTableWord at h
  split at h
  case h_1 hdecode =>
    rw [hdecode, Option.some.inj h]
  case h_2 => cases h

theorem State.hostWaits_withFetchWord (s : State) (nbits w : Nat) :
    (s.withFetchWord nbits w).hostWaits = true := by
  unfold State.withFetchWord State.hostWaits
  cases s.host with
  | nil => rfl
  | cons e rest => cases e <;> rfl

/-- Settles O2: placing a command makes the block move next with BUSY = 1 and the command in CMD,
and no reset waits for its end. -/
theorem placedCommandRunsNext : Obligations.PlacedCommandRunsNext := by
  intro s nbits w i hpending hword
  have hdecode : decode (s.withFetchWord nbits w).turnTaken.cmd = .ok i :=
    decode_of_decodeTableWord hword
  obtain ⟨t, hrun⟩ := (s.withFetchWord nbits w).turnTaken.exists_runCommand_eq
  have hexec := (State.runCommand_of_decode_ok hdecode).symm.trans hrun
  obtain ⟨_, _, _, hkept⟩ := exec_keeps hexec
  have hnone : t.srstPending = false := hkept.trans hpending
  refine ⟨t, hexec, ?_⟩
  rw [step_of_runCommand (s.hostWaits_withFetchWord nbits w) rfl hrun,
    State.applyPendingReset_of_none hnone]

theorem State.writeCsr_keeps (s : State) (idx val : Word) :
    (s.writeCsr idx val).dotres = s.dotres ∧ (s.writeCsr idx val).acc = s.acc ∧
      (s.writeCsr idx val).dmem = s.dmem := by
  unfold State.writeCsr
  split_ifs <;> exact ⟨rfl, rfl, rfl⟩

/-- Settles O47: a fault writes STATUS alone, and each effect writes the state of its kind. -/
theorem commandsWriteOnlyTheirState : Obligations.CommandsWriteOnlyTheirState := by
  intro i s t hexec
  obtain ⟨hcmd, hherr, hsize, _⟩ := exec_keeps hexec
  refine ⟨hcmd, hherr, hsize, ?_⟩
  obtain ⟨c, _, hfault⟩ | ⟨_, hdone⟩ := exec_cases i s
  · obtain rfl := Host.Outcome.next.inj (hfault.symm.trans hexec)
    simp
  · obtain rfl := Host.Outcome.next.inj (hdone.symm.trans hexec)
    cases i
    case cfg => simpa [Instr.mnemonic, commandEffect] using s.writeCsr_keeps _ _
    all_goals simp [Instr.mnemonic, commandEffect]

end Sys2Proof.Machine
end

section
/-! The invariant along every step, and what stays until a reset: each turn of the BLOCK and of the
HOST by what it can change (10_state R24, R26, 20_memory R50, 60_exceptions R238, R241). -/

namespace Sys2Proof.Machine

/-! ### What one access of the HOST can do (20_memory R60 to R63, 60_exceptions R242) -/

/-- The effects of an access: a report to the host, of which HERR can only be set; what the host
writes while the block is idle; and the resets. -/
inductive State.HostEffect (s : State) (a : HostAccess) : State → Prop
  | report (herr : Bool) (data : Word) (tick : Nat) (hsticky : s.herr = true → herr = true) :
    s.HostEffect a { s with herr := herr, hostData := data, freeTick := tick }
  | go (hidle : s.busy = false) (hclear : s.fault = false) : s.HostEffect a { s with busy := true }
  | command (d : Descriptor) (hidle : s.busy = false) : s.HostEffect a { s with cmd := d }
  | datum (width : AccessWidth) (addr : Nat) (v : Word) (hidle : s.busy = false)
    (hok : dmemAccessOk s.dmemSize width addr = true) :
    s.HostEffect a (s.store (datumWrites width addr v))
  | softReset (hreset : (HostEvent.access a).resets = true) (hbusy : s.busy = true) :
    s.HostEffect a { s with srstPending := true }
  | reset (hreset : (HostEvent.access a).resets = true) (hidle : s.busy = false) :
    s.HostEffect a s.resetRegisters
  | hardReset (hreset : (HostEvent.access a).resets = true) (hbusy : s.busy = true) :
    s.HostEffect a s.hardReset

section
variable (s : State) (a : HostAccess)

theorem State.hostEffect_self : s.HostEffect a s := .report s.herr s.hostData s.freeTick id

theorem State.hostEffect_answer (v : Word) : s.HostEffect a (s.answer v) :=
  .report s.herr v s.freeTick id

theorem State.hostEffect_setHerr : s.HostEffect a s.setHerr :=
  .report true s.hostData s.freeTick fun _ => rfl

theorem State.hostEffect_refusedRead (width : AccessWidth) :
    s.HostEffect a (s.answerAny width).setHerr := .report true _ _ fun _ => rfl

theorem State.hostEffect_writeCtrl (v : Word)
    (ha : (HostEvent.access a).resets = v.getLsbD 1) : s.HostEffect a (s.writeCtrl v) := by
  unfold State.writeCtrl
  split
  case isTrue hsrst =>
    split
    case isTrue hbusy => exact .softReset (ha.trans hsrst) hbusy
    case isFalse hidle => exact .reset (ha.trans hsrst) (Bool.not_eq_true _ ▸ hidle)
  case isFalse =>
    split
    case isFalse => exact s.hostEffect_self a
    case isTrue =>
      split
      case isTrue => exact s.hostEffect_setHerr a
      case isFalse hready =>
        obtain ⟨hidle, hclear⟩ : s.busy = false ∧ s.fault = false := by simpa using hready
        exact .go hidle hclear

theorem State.hostEffect_writeReg (off : Nat) (v : Word)
    (ha : (HostEvent.access a).resets = (regAt off == .ctrl && v.getLsbD 1)) :
    s.HostEffect a (s.writeReg (regAt off) v) := by
  cases hreg : regAt off with
  | ctrl => exact s.hostEffect_writeCtrl a v (by simpa [hreg] using ha)
  | cmd i =>
    simp only [State.writeReg]
    split
    case isTrue => exact s.hostEffect_setHerr a
    case isFalse hidle => exact .command _ (Bool.not_eq_true _ ▸ hidle)
  | id => exact s.hostEffect_self a
  | status => exact s.hostEffect_self a
  | retired => exact s.hostEffect_self a
  | dotres => exact s.hostEffect_self a
  | n => exact s.hostEffect_self a
  | mr => exact s.hostEffect_self a
  | nr => exact s.hostEffect_self a
  | reserved => exact s.hostEffect_self a

theorem State.hostAccess_effect : s.HostEffect a (s.hostAccess a) := by
  cases a with
  | regRead width off =>
    simp only [State.hostAccess_regRead, State.hostRegRead]
    split
    case isFalse => exact s.hostEffect_refusedRead _ width
    case isTrue =>
      split
      case isTrue => exact .report s.herr _ _ id
      case isFalse => exact s.hostEffect_answer _ _
  | regWrite width off v =>
    simp only [State.hostAccess_regWrite, State.hostRegWrite]
    split
    case isFalse => exact s.hostEffect_setHerr _
    case isTrue hok => exact s.hostEffect_writeReg _ off v (by simp [HostEvent.resets, hok])
  | dmemRead width addr =>
    simp only [State.hostAccess_dmemRead, State.hostDmemRead]
    split
    case isFalse => exact s.hostEffect_refusedRead _ width
    case isTrue => exact s.hostEffect_answer _ _
  | dmemWrite width addr v =>
    simp only [State.hostAccess_dmemWrite, State.hostDmemWrite]
    split
    case isFalse => exact s.hostEffect_setHerr _
    case isTrue hok =>
      obtain ⟨hidle, hinside⟩ : s.busy = false ∧ dmemAccessOk s.dmemSize width addr = true := by
        simpa using hok
      exact .datum width addr v hidle hinside
  | hardReset =>
    rw [State.hostAccess_hardReset]
    cases hbusy : s.busy
    case false =>
      rw [State.hardReset_idle hbusy]
      exact .reset rfl hbusy
    case true => exact .hardReset rfl hbusy

end

/-- All a step can do: an access of the host, or the block's turn, idle or running. -/
theorem step_cases {s t : State} (h : step s = .next t) :
    (∃ a, s.host.head? = some (.access a) ∧ s.turnTaken.HostEffect a t) ∨
      (s.busy = false ∧ t = s.turnTaken) ∨
      (s.busy = true ∧ ∃ u, s.turnTaken.runCommand = .next u ∧ t = u.applyPendingReset) := by
  obtain hwaits | ⟨a, haccess⟩ := hostWaits_or_access s
  case inr =>
    obtain rfl := Host.Outcome.next.inj ((step_of_access haccess).symm.trans h)
    exact .inl ⟨a, haccess, s.turnTaken.hostAccess_effect a⟩
  case inl =>
    cases hbusy : s.busy
    case false =>
      have hidle := (step_of_hostWaits hwaits).trans (State.blockStep_idle hbusy)
      exact .inr (.inl ⟨rfl, Host.Outcome.next.inj (h.symm.trans hidle)⟩)
    case true =>
      obtain ⟨u, hrun⟩ := s.turnTaken.exists_runCommand_eq
      have hstep := step_of_runCommand hwaits hbusy hrun
      exact .inr (.inr ⟨rfl, u, hrun, Host.Outcome.next.inj (h.symm.trans hstep)⟩)

/-! ### What stays until a reset (60_exceptions R238, R241) -/

theorem State.runCommand_keeps {s t : State} (h : s.runCommand = .next t) :
    t.herr = s.herr ∧ t.srstPending = s.srstPending ∧ t.dmemSize = s.dmemSize := by
  obtain ⟨c, hfault⟩ | ⟨i, _, hdone⟩ := s.runCommand_outcome
  · obtain rfl := Host.Outcome.next.inj (hfault.symm.trans h)
    simp
  · obtain rfl := Host.Outcome.next.inj (hdone.symm.trans h)
    obtain ⟨⟨_, _, hherr, _⟩, _, hsize, hpending, _⟩ := commandEffect_keeps i s
    exact ⟨hherr, hpending, hsize⟩

/-- Settles O46: no command writes HERR, and an access that is no reset can only set it. -/
theorem herrStaysUntilReset : Obligations.HerrStaysUntilReset := by
  intro s t hherr hpending hnoReset hstep
  obtain ⟨a, haccess, heffect⟩ | ⟨_, rfl⟩ | ⟨_, u, hrun, rfl⟩ := step_cases hstep
  · have hkeeps := hnoReset _ haccess
    cases heffect with
    | report herr data tick hsticky => exact hsticky hherr
    | go => exact hherr
    | command => exact hherr
    | datum => exact hherr
    | softReset hreset => cases hreset.symm.trans hkeeps
    | reset hreset => cases hreset.symm.trans hkeeps
    | hardReset hreset => cases hreset.symm.trans hkeeps
  · exact hherr
  · obtain ⟨hsame, hnone, _⟩ := State.runCommand_keeps hrun
    rw [State.applyPendingReset_of_none (hnone.trans hpending)]
    exact hsame.trans hherr

theorem State.statusLegal_of_fault {s : State} (h : s.fault = true) :
    s.statusLegal = true ↔ (1 ≤ s.cause.toNat ∧ s.cause.toNat ≤ 9) ∧ s.busy = false := by
  simp [State.statusLegal, h]

theorem State.statusLegal_of_no_fault {s : State} (h : s.fault = false) :
    s.statusLegal = true ↔ s.cause = 0#8 ∧ s.fopc = 0#8 := by
  simp [State.statusLegal, h]

/-- Without FAULT, BUSY has no part in STATUS being consistent. -/
theorem State.statusLegal_congr {s t : State} (hclear : s.fault = false)
    (hfault : t.fault = s.fault) (hcause : t.cause = s.cause) (hfopc : t.fopc = s.fopc) :
    t.statusLegal = true ↔ s.statusLegal = true := by
  rw [State.statusLegal_of_no_fault hclear, State.statusLegal_of_no_fault (hfault.trans hclear),
    hcause, hfopc]

theorem State.Legal.no_fault_of_busy {s : State} (h : s.Legal) (hbusy : s.busy = true) :
    s.fault = false := by
  by_contra hfault
  obtain ⟨_, hidle⟩ := (State.statusLegal_of_fault (Bool.not_eq_false _ ▸ hfault)).mp h.status
  cases hbusy.symm.trans hidle

/-- Settles O45: a faulted block is idle, so it takes no turn, and an access that is no reset writes
nothing but CMD, DMEM, HERR and the host's own fields. -/
theorem faultStaysUntilReset : Obligations.FaultStaysUntilReset := by
  intro s t hinv hfault hnoReset hstep
  obtain ⟨hlegal, _⟩ := State.inv_iff.mp hinv
  obtain ⟨_, hidle⟩ := (State.statusLegal_of_fault hfault).mp hlegal.status
  obtain ⟨a, haccess, heffect⟩ | ⟨_, rfl⟩ | ⟨hbusy, _⟩ := step_cases hstep
  · have hkeeps := hnoReset _ haccess
    cases heffect with
    | report => exact ⟨hfault, hidle, rfl, rfl, rfl, rfl, rfl, rfl, rfl, rfl⟩
    | go _ hclear => cases hfault.symm.trans hclear
    | command => exact ⟨hfault, hidle, rfl, rfl, rfl, rfl, rfl, rfl, rfl, rfl⟩
    | datum => exact ⟨hfault, hidle, rfl, rfl, rfl, rfl, rfl, rfl, rfl, rfl⟩
    | softReset hreset => cases hreset.symm.trans hkeeps
    | reset hreset => cases hreset.symm.trans hkeeps
    | hardReset hreset => cases hreset.symm.trans hkeeps
  · exact ⟨hfault, hidle, rfl, rfl, rfl, rfl, rfl, rfl, rfl, rfl⟩
  · cases hbusy.symm.trans hidle

/-! ### The writes of a command stay inside DMEM (20_memory R50) -/

theorem lt_of_range {size base len : Nat} (h : inDmem size base len = true)
    {ws : List Host.Cell} (hws : ∀ c ∈ ws, base ≤ c.1 ∧ c.1 < base + len) :
    ∀ c ∈ ws, c.1 < size := by
  intro c hc
  obtain ⟨hlow, hhigh⟩ := hws c hc
  exact inDmem_lt h hlow hhigh

/-- DMEM after a command is DMEM after some writes, all of them inside DMEM_SIZE. -/
def State.WritesInside (s t : State) : Prop :=
  ∃ ws : List Host.Cell, t.dmem = Memory.writeAll s.dmem ws ∧ ∀ c ∈ ws, c.1 < s.dmemSize

theorem State.writesInside_of_dmem_eq {s t : State} (h : t.dmem = s.dmem) : s.WritesInside t :=
  ⟨[], h, fun _ hc => absurd hc List.not_mem_nil⟩

theorem State.writesInside_setActive (s : State) (f : Nat → Nat → Byte) :
    s.WritesInside (s.setActive f) := State.writesInside_of_dmem_eq (s.setActive_dmem f)

theorem State.writesInside_store {s : State} {ws : List Host.Cell}
    (hws : ∀ c ∈ ws, c.1 < s.dmemSize) : s.WritesInside (s.store ws) := ⟨ws, rfl, hws⟩

theorem State.writesInside_storeLanes {s : State} {w : Lanes} {dst : Nat}
    (h : inDmem s.dmemSize dst (laneCount w) = true) (lane : Nat → Byte) :
    s.WritesInside (s.storeLanes w dst lane) :=
  ⟨_, rfl, lt_of_range h fun _ => mem_laneWrites_range⟩

theorem State.writesInside_panelPair {s : State} {dv ds width steps ext : Nat}
    (hext : ext % width = 0) (hdv : inDmem s.dmemSize dv (ext * steps) = true)
    (hds : inDmem s.dmemSize ds (ext * steps) = true) (val val' : Nat → Nat → Nat → Byte) :
    s.WritesInside (s.store (panelWrites dv width steps (ext / width) val
      ++ panelWrites ds width steps (ext / width) val')) := by
  refine State.writesInside_store fun c hc => ?_
  obtain hc | hc := List.mem_append.mp hc
  · exact lt_of_range hdv (fun _ => mem_panelWrites_range hext) c hc
  · exact lt_of_range hds (fun _ => mem_panelWrites_range hext) c hc

/-- The range check of each command covers every address it writes. -/
theorem commandEffect_writesInside {s : State} {i : Instr} (hcheck : commandCheck s i = .ok ()) :
    s.WritesInside (commandEffect s i) := by
  cases i with
  | nop => exact State.writesInside_of_dmem_eq rfl
  | cfg idx val =>
    obtain ⟨_, _, hdmem⟩ := s.writeCsr_keeps idx val
    exact State.writesInside_of_dmem_eq hdmem
  | zfill dst len =>
    exact State.writesInside_store
      (lt_of_range (require_eq_ok.mp hcheck) fun _ => mem_zfillWrites_range)
  | xposeC2R src dst rows cols =>
    obtain ⟨⟨_, hdst⟩, _⟩ := xposeCheck_eq_ok.mp hcheck
    exact State.writesInside_store (lt_of_range hdst fun _ => mem_xposeC2RWrites_range)
  | xposeR2C src dst rows cols =>
    obtain ⟨⟨_, hdst⟩, _⟩ := xposeCheck_eq_ok.mp hcheck
    exact State.writesInside_store (lt_of_range hdst fun _ => mem_xposeR2CWrites_range)
  | cmpr src dv ds len =>
    obtain ⟨_, ⟨_, hdv, hds⟩, _⟩ := cmprCheck_eq_ok.mp hcheck
    refine State.writesInside_store fun c hc => ?_
    obtain ⟨g, hg, rfl | rfl⟩ := mem_cmprWrites.mp hc
    · exact inDmem_lt hdv (Nat.le_add_right _ _) (Nat.add_lt_add_left hg _)
    · exact inDmem_lt hds (Nat.le_add_right _ _) (Nat.add_lt_add_left hg _)
  | packA src dst row0 k0 mc kc =>
    obtain ⟨hgeometry, ⟨_, hdst⟩, _⟩ := packRawCheck_eq_ok.mp hcheck
    obtain ⟨_, _, ⟨hext, _⟩, _⟩ := packGeometry_eq_ok.mp hgeometry
    exact State.writesInside_store (lt_of_range hdst fun _ => mem_panelWrites_range hext)
  | packAP sv ss dv ds row0 k0 mc kc =>
    obtain ⟨hgeometry, ⟨_, _, hdv, hds⟩, _⟩ := packPackedCheck_eq_ok.mp hcheck
    obtain ⟨_, _, ⟨hext, _⟩, _⟩ := packGeometry_eq_ok.mp hgeometry
    exact State.writesInside_panelPair hext hdv hds _ _
  | packB src dst col0 k0 nc kc =>
    obtain ⟨hgeometry, ⟨_, hdst⟩, _⟩ := packRawCheck_eq_ok.mp hcheck
    obtain ⟨_, _, ⟨hext, _⟩, _⟩ := packGeometry_eq_ok.mp hgeometry
    exact State.writesInside_store (lt_of_range hdst fun _ => mem_panelWrites_range hext)
  | packBP sv ss dv ds col0 k0 nc kc =>
    obtain ⟨hgeometry, ⟨_, _, hdv, hds⟩, _⟩ := packPackedCheck_eq_ok.mp hcheck
    obtain ⟨_, _, ⟨hext, _⟩, _⟩ := packGeometry_eq_ok.mp hgeometry
    exact State.writesInside_panelPair hext hdv hds _ _
  | tclr => exact State.writesInside_of_dmem_eq rfl
  | tld cbase row0 col0 =>
    simp only [commandEffect]
    exact s.writesInside_setActive _
  | tst cbase row0 col0 =>
    obtain ⟨_, _, ⟨hrows, hcols⟩, hrange⟩ := tileCheck_eq_ok.mp hcheck
    exact State.writesInside_store (lt_of_range hrange fun _ => mem_tstWrites_range hrows hcols)
  | mkr a b kc =>
    rw [commandEffect_mkr]
    exact s.writesInside_setActive _
  | mkp aVal aSgn bVal bSgn kc =>
    rw [commandEffect_mkp]
    exact s.writesInside_setActive _
  | dotrN w a b dst =>
    obtain ⟨⟨_, _, hdst⟩, _⟩ := dotrNCheck_eq_ok.mp hcheck
    exact State.writesInside_storeLanes hdst _
  | dotrS w a vmask smask dst =>
    obtain ⟨⟨_, hdst⟩, _⟩ := dotrMaskCheck_eq_ok.mp hcheck
    exact State.writesInside_storeLanes hdst _
  | dotrT w a vmask smask dst =>
    obtain ⟨⟨_, hdst⟩, _⟩ := dotrMaskCheck_eq_ok.mp hcheck
    exact State.writesInside_storeLanes hdst _

theorem State.memoryLegal_of_writesInside {s t : State} (h : s.memoryLegal = true)
    (hwrites : s.WritesInside t) (hsize : t.dmemSize = s.dmemSize) : t.memoryLegal = true := by
  obtain ⟨hwf, hwithin, hlegal⟩ := State.memoryLegal_iff.mp h
  obtain ⟨ws, hdmem, hws⟩ := hwrites
  rw [State.memoryLegal_iff, hdmem, hsize]
  exact ⟨Memory.wf_writeAll ws hwf, Memory.within_writeAll ws hws hwithin, hlegal⟩

/-! ### The block's turn keeps the invariant (10_state R24, R26) -/

theorem cause_code_range (c : Cause) : 1 ≤ c.code.toNat ∧ c.code.toNat ≤ 9 := by
  cases c <;> decide

theorem State.Legal.raise {s : State} (h : s.Legal) (c : Cause) : (s.raise c).Legal where
  rows := h.rows
  columns := h.columns
  status := (State.statusLegal_of_fault rfl).mpr ⟨cause_code_range c, rfl⟩
  memory := h.memory

/-- A legal CFG writes 8 or 16 to a tile width. -/
theorem tileWidthLegal_commandEffect {s : State} {i : Instr} (h : s.Legal)
    (hcheck : commandCheck s i = .ok ()) :
    tileWidthLegal (commandEffect s i).csrMR = true ∧
      tileWidthLegal (commandEffect s i).csrNR = true := by
  by_cases hcfg : i.mnemonic = .cfg
  case neg =>
    obtain ⟨_, _, _, hcsr, _⟩ :=
      commandsWriteOnlyTheirState i s _ (exec_of_commandCheck_ok hcheck)
    obtain ⟨_, hMR, hNR⟩ := hcsr hcfg
    exact ⟨hMR ▸ h.rows, hNR ▸ h.columns⟩
  case pos =>
    cases i <;> cases hcfg
    case cfg idx val =>
      have hlegal := (cfgLegalityIsTheRule idx val).mp (require_eq_ok.mp hcheck)
      obtain ⟨rfl, _⟩ | ⟨rfl, rfl | rfl⟩ | ⟨rfl, rfl | rfl⟩ := hlegal
      · exact ⟨h.rows, h.columns⟩
      · exact ⟨rfl, h.columns⟩
      · exact ⟨rfl, h.columns⟩
      · exact ⟨h.rows, rfl⟩
      · exact ⟨h.rows, rfl⟩

theorem State.Legal.commandEffect_retire {s : State} {i : Instr} (h : s.Legal)
    (hbusy : s.busy = true) (hcheck : commandCheck s i = .ok ()) :
    (commandEffect s i).retire.Legal := by
  obtain ⟨hrows, hcolumns⟩ := tileWidthLegal_commandEffect h hcheck
  obtain ⟨⟨_, hfault, _, hcause, hfopc, _⟩, _, hsize, _⟩ := commandEffect_keeps i s
  exact ⟨hrows, hcolumns,
    (State.statusLegal_congr (t := (commandEffect s i).retire) (h.no_fault_of_busy hbusy) hfault
      hcause hfopc).mpr h.status,
    State.memoryLegal_of_writesInside h.memory (commandEffect_writesInside hcheck) hsize⟩

theorem State.Legal.runCommand {s t : State} (h : s.Legal) (hbusy : s.busy = true)
    (hrun : s.runCommand = .next t) : t.Legal := by
  obtain ⟨c, hfault⟩ | ⟨i, hcheck, hdone⟩ := s.runCommand_outcome
  · obtain rfl := Host.Outcome.next.inj (hfault.symm.trans hrun)
    exact h.raise c
  · obtain rfl := Host.Outcome.next.inj (hdone.symm.trans hrun)
    exact h.commandEffect_retire hbusy hcheck

theorem State.inv_resetRegisters {s : State} (h : s.memoryLegal = true) :
    s.resetRegisters.inv = true :=
  State.inv_iff.mpr ⟨⟨rfl, rfl, rfl, h⟩, fun _ => rfl⟩

/-- The end of a command: a reset that waited is applied, so none waits while the block is idle. -/
theorem State.Legal.inv_applyPendingReset {s : State} (h : s.Legal) :
    s.applyPendingReset.inv = true := by
  cases hpending : s.srstPending
  case false =>
    rw [State.applyPendingReset_of_none hpending]
    exact State.inv_iff.mpr ⟨h, fun _ => hpending⟩
  case true =>
    rw [State.applyPendingReset_of_pending hpending]
    exact State.inv_resetRegisters h.memory

/-! ### The host's turn keeps the invariant (20_memory R61, 70_reset_and_hazards R263) -/

theorem Memory.within_mix {size : Nat} (landed : Nat → Bool) {old new : Memory}
    (hold : Memory.within size old = true) (hnew : Memory.within size new = true) :
    Memory.within size (Memory.mix landed old new) = true := by
  refine Memory.within_writeAll _ (fun c hc => ?_) hold
  simp only [Memory.within, List.all_eq_true, decide_eq_true_eq] at hold hnew
  obtain ⟨d, hd, rfl⟩ := List.mem_map.mp hc
  obtain hd | hd := List.mem_append.mp hd
  · exact hold d hd
  · exact hnew d hd

/-- What rst_n leaves while BUSY = 1, before its register reset: the mixed memory. -/
def State.mixedWith (s t : State) : State :=
  ({ s with dmem := Memory.mix (Config.freeLanded s.freeTick) s.dmem t.dmem } : State).tick

theorem State.hardReset_busy {s t : State} (hbusy : s.busy = true) (hturn : s.blockStep = .next t) :
    s.hardReset = (s.mixedWith t).resetRegisters := by
  simp [State.hardReset, hbusy, State.afterCommand_eq hturn, State.mixedWith]

theorem State.memoryLegal_mixedWith {s t : State} (hs : s.memoryLegal = true)
    (ht : t.memoryLegal = true) (hsize : t.dmemSize = s.dmemSize) :
    (s.mixedWith t).memoryLegal = true := by
  obtain ⟨hwf, hold, hlegal⟩ := State.memoryLegal_iff.mp hs
  obtain ⟨_, hnew, _⟩ := State.memoryLegal_iff.mp ht
  rw [hsize] at hnew
  exact State.memoryLegal_iff.mpr ⟨Memory.wf_mix _ hwf, Memory.within_mix _ hold hnew, hlegal⟩

theorem State.applyPendingReset_dmemSize (s : State) :
    s.applyPendingReset.dmemSize = s.dmemSize := by
  unfold State.applyPendingReset
  split <;> rfl

theorem State.Legal.inv_hardReset {s : State} (h : s.Legal) (hbusy : s.busy = true) :
    s.hardReset.inv = true := by
  obtain ⟨u, hrun⟩ := s.exists_runCommand_eq
  obtain ⟨_, _, hsize⟩ := State.runCommand_keeps hrun
  obtain ⟨hafter, _⟩ := State.inv_iff.mp (h.runCommand hbusy hrun).inv_applyPendingReset
  rw [State.hardReset_busy hbusy (State.blockStep_busy hbusy hrun)]
  exact State.inv_resetRegisters (State.memoryLegal_mixedWith h.memory hafter.memory
    (u.applyPendingReset_dmemSize.trans hsize))

theorem dmemAccessOk_writesInside {s : State} {width : AccessWidth} {addr : Nat}
    (hok : dmemAccessOk s.dmemSize width addr = true) (v : Word) :
    s.WritesInside (s.store (datumWrites width addr v)) := by
  obtain ⟨_, hinside⟩ := dmemAccessOk_eq_true.mp hok
  refine State.writesInside_store fun c hc => ?_
  obtain ⟨k, hk, rfl⟩ := mem_datumWrites.mp hc
  exact Nat.lt_of_lt_of_le (Nat.add_lt_add_left hk addr) hinside

theorem State.HostEffect.inv {s t : State} {a : HostAccess} (heffect : s.HostEffect a t)
    (h : s.inv = true) : t.inv = true := by
  obtain ⟨hlegal, hpending⟩ := State.inv_iff.mp h
  obtain ⟨hrows, hcolumns, hstatus, hmemory⟩ := hlegal
  cases heffect with
  | report => exact State.inv_iff.mpr ⟨⟨hrows, hcolumns, hstatus, hmemory⟩, hpending⟩
  | go _ hclear =>
    exact State.inv_iff.mpr ⟨⟨hrows, hcolumns,
      (State.statusLegal_congr (t := { s with busy := true }) hclear rfl rfl rfl).mpr hstatus,
      hmemory⟩, fun hidle => nomatch hidle⟩
  | command => exact State.inv_iff.mpr ⟨⟨hrows, hcolumns, hstatus, hmemory⟩, hpending⟩
  | datum width addr v _ hok =>
    exact State.inv_iff.mpr ⟨⟨hrows, hcolumns, hstatus,
      State.memoryLegal_of_writesInside hmemory (dmemAccessOk_writesInside hok v) rfl⟩, hpending⟩
  | softReset _ hbusy =>
    exact State.inv_iff.mpr ⟨⟨hrows, hcolumns, hstatus, hmemory⟩,
      fun hidle => nomatch hbusy.symm.trans hidle⟩
  | reset => exact State.inv_resetRegisters hmemory
  | hardReset _ hbusy => exact State.Legal.inv_hardReset ⟨hrows, hcolumns, hstatus, hmemory⟩ hbusy

/-- Settles O48: an access writes legal values or resets, a command that passed its checks writes
inside DMEM and legal tile widths, and a fault writes a code of the table. -/
theorem stepKeepsInvariant : Obligations.StepKeepsInvariant := by
  intro s t hinv hstep
  have htaken : s.turnTaken.inv = true := hinv
  obtain ⟨a, _, heffect⟩ | ⟨_, rfl⟩ | ⟨hbusy, u, hrun, rfl⟩ := step_cases hstep
  · exact heffect.inv htaken
  · exact htaken
  · obtain ⟨hlegal, _⟩ := State.inv_iff.mp htaken
    exact (hlegal.runCommand hbusy hrun).inv_applyPendingReset

theorem State.inv_powerOn {size : Nat} {m : Memory} (turns : List HostEvent) (hlow : 1 ≤ size)
    (hhigh : size ≤ 2 ^ 32) (hwf : Memory.wf m = true) (hwithin : Memory.within size m = true) :
    (State.powerOn size m turns).inv = true :=
  State.inv_iff.mpr ⟨⟨rfl, rfl, rfl, State.memoryLegal_iff.mpr ⟨hwf, hwithin, hlow, hhigh⟩⟩,
    fun _ => rfl⟩

/-- Settles O49: every register of power-on is 0, and DMEM is legal by the hypotheses, which the
empty memory of `State.reset` meets. -/
theorem powerOnSatisfiesInvariant : Obligations.PowerOnSatisfiesInvariant :=
  ⟨State.inv_powerOn [] (by decide) (by decide) rfl rfl,
    fun _ _ turns hlow hhigh hwf hwithin => State.inv_powerOn turns hlow hhigh hwf hwithin⟩

end Sys2Proof.Machine
end

section
/-! The host's accesses one by one: reads and writes of each register, the accesses the ports refuse,
and the resets during a command (10_state R23 to R32, 20_memory R62, R63,
70_reset_and_hazards R262, R263). -/

namespace Sys2Proof.Machine

/-! ### The register at each offset (10_state R23) -/

theorem offset_cmd_aligned (i : Fin 8) : (0x040 + 4 * i.val) % 4 = 0 := by omega

@[simp] theorem regAt_cmd (i : Fin 8) : regAt (0x040 + 4 * i.val) = .cmd i := by
  unfold regAt
  iterate 8 rw [if_neg (by omega)]
  rw [if_pos ⟨by omega, offset_cmd_aligned i⟩, dif_pos (by omega)]
  simp

/-- The low byte of STATUS, put after the rest as one or field by field. -/
theorem toNat_append_flags (high : BitVec 24) (reserved : BitVec 5) (herr fault busy : BitVec 1) :
    (high ++ (reserved ++ herr ++ fault ++ busy)).toNat =
      (high ++ reserved ++ herr ++ fault ++ busy).toNat := by
  simp only [BitVec.toNat_append, Nat.shiftLeft_or_distrib, ← Nat.shiftLeft_add, Nat.or_assoc]

/-- STATUS of an idle block, its fields written out (10_state R26). -/
theorem State.status_idle {s : State} (h : s.busy = false) :
    s.status = (0#8 ++ s.fopc ++ s.cause ++ 0#5 ++ BitVec.ofBool s.herr
      ++ BitVec.ofBool s.fault ++ 0#1 : Word) := by
  rw [State.status, h]
  exact BitVec.eq_of_toNat_eq (toNat_append_flags _ _ _ _ _)

/-- Settles O50: each offset is that of its register, and an idle read answers with it. -/
theorem registerPortReads : Obligations.RegisterPortReads := by
  intro s hidle
  constructor
  · intro off v hmem
    have haligned : off % 4 = 0 ∧ s.readReg (regAt off) = v := by
      simp only [List.mem_cons, Prod.mk.injEq, List.not_mem_nil, or_false] at hmem
      obtain ⟨rfl, rfl⟩ | ⟨rfl, rfl⟩ | ⟨rfl, rfl⟩ | ⟨rfl, rfl⟩ | ⟨rfl, rfl⟩ | ⟨rfl, rfl⟩ |
        ⟨rfl, rfl⟩ | ⟨rfl, rfl⟩ := hmem
      case inr.inr.inl => exact ⟨rfl, State.status_idle hidle⟩
      all_goals exact ⟨rfl, rfl⟩
    obtain ⟨ho, rfl⟩ := haligned
    exact State.hostRegRead_idle hidle ho
  · intro i
    rw [State.hostAccess_regRead, State.hostRegRead_idle hidle (offset_cmd_aligned i), regAt_cmd]
    rfl

theorem State.hostRegWrite_cmd (s : State) (i : Fin 8) (v : Word) :
    s.hostRegWrite .word (0x040 + 4 * i.val) v = s.writeReg (.cmd i) v := by
  rw [State.hostRegWrite_aligned s (offset_cmd_aligned i), regAt_cmd]

/-- Settles O52: a CMD write is accepted while idle, and the read-only registers ignore writes. -/
theorem registerPortWrites : Obligations.RegisterPortWrites := by
  intro s v
  constructor
  · intro hidle i
    rw [State.hostAccess_regWrite, State.hostRegWrite_cmd]
    simp [State.writeReg, hidle]
  · intro off hoff
    simp only [List.mem_cons, List.not_mem_nil, or_false] at hoff
    obtain rfl | rfl | rfl | rfl | rfl | rfl | rfl := hoff <;> rfl

/-! ### CTRL (10_state R29) -/

theorem State.writeCtrl_go_accepted {s : State} {v : Word} (hgo : v.getLsbD 0 = true)
    (hsrst : v.getLsbD 1 = false) (hidle : s.busy = false) (hclear : s.fault = false) :
    s.writeCtrl v = { s with busy := true } := by
  simp only [State.writeCtrl, hsrst, hgo, hidle, hclear, Bool.or_self, Bool.false_eq_true, if_false,
    if_true]

theorem State.writeCtrl_go_dropped {s : State} {v : Word} (hgo : v.getLsbD 0 = true)
    (hsrst : v.getLsbD 1 = false) (h : (s.busy || s.fault) = true) :
    s.writeCtrl v = s.setHerr := by
  simp only [State.writeCtrl, hsrst, hgo, h, Bool.false_eq_true, if_false, if_true]

theorem State.writeCtrl_softReset_busy {s : State} {v : Word} (hsrst : v.getLsbD 1 = true)
    (hbusy : s.busy = true) : s.writeCtrl v = { s with srstPending := true } := by
  simp [State.writeCtrl, hsrst, hbusy]

/-- Settles O53: GO is accepted when neither BUSY nor FAULT is set, and CTRL has no other bit. -/
theorem goStartsTheCommand : Obligations.GoStartsTheCommand := by
  intro s v
  rw [State.hostAccess_regWrite, State.hostRegWrite_ctrl]
  constructor
  · intro hidle hclear hgo hsrst
    exact State.writeCtrl_go_accepted hgo hsrst hidle hclear
  · exact State.writeCtrl_none

/-- Settles O44: FAULT = 1 is one of the two conditions that drop a GO. -/
theorem goAfterFaultIsDropped : Obligations.GoAfterFaultIsDropped := by
  intro s v hfault hgo hsrst
  rw [State.hostAccess_regWrite, State.hostRegWrite_ctrl]
  exact State.writeCtrl_go_dropped hgo hsrst (by rw [hfault, Bool.or_true])

/-! ### Accesses the ports refuse (20_memory R62, R63) -/

theorem dmemAccessOk_eq_false {size : Nat} {width : AccessWidth} {addr : Nat} :
    dmemAccessOk size width addr = false ↔
      addr % width.bytes ≠ 0 ∨ size < addr + width.bytes := by
  rw [← Bool.not_eq_true, dmemAccessOk_eq_true, not_and_or, Nat.not_le]

theorem State.hostDmemRead_refused {s : State} {width : AccessWidth} {addr : Nat}
    (h : s.busy = true ∨ dmemAccessOk s.dmemSize width addr = false) :
    s.hostDmemRead width addr = (s.answerAny width).setHerr := by
  obtain h | h := h <;> simp [State.hostDmemRead, h]

theorem State.hostDmemWrite_refused {s : State} {width : AccessWidth} {addr : Nat}
    (h : s.busy = true ∨ dmemAccessOk s.dmemSize width addr = false) (v : Word) :
    s.hostDmemWrite width addr v = s.setHerr := by
  obtain h | h := h <;> simp [State.hostDmemWrite, h]

/-- Settles O55: both ports refuse a bad access alike. -/
theorem badHostAccessSetsHerr : Obligations.BadHostAccessSetsHerr := by
  intro s width v
  constructor
  · intro a hbad
    have hrefused := dmemAccessOk_eq_false.mpr hbad
    exact ⟨State.hostDmemWrite_refused (.inr hrefused) v,
      State.hostDmemRead_refused (.inr hrefused)⟩
  · intro off hbad
    exact ⟨s.hostRegWrite_refused hbad v, s.hostRegRead_refused hbad⟩

/-- Settles O56: BUSY = 1 refuses DMEM accesses, CMD writes and GO. -/
theorem hostWritesWhileBusyAreDropped : Obligations.HostWritesWhileBusyAreDropped := by
  intro s width a v hbusy
  refine ⟨State.hostDmemWrite_refused (.inl hbusy) v, ?command, ?go,
    State.hostDmemRead_refused (.inl hbusy)⟩
  case command =>
    intro i
    rw [State.hostAccess_regWrite, State.hostRegWrite_cmd]
    exact if_pos hbusy
  case go =>
    intro hgo hsrst
    rw [State.hostAccess_regWrite, State.hostRegWrite_ctrl]
    exact State.writeCtrl_go_dropped hgo hsrst (by rw [hbusy, Bool.true_or])

/-! ### Register reads while BUSY = 1 (20_memory R63, 10_state R34) -/

theorem State.hostRegRead_busy_data {s : State} (hbusy : s.busy = true) {off : Nat}
    (ho : off % 4 = 0) :
    (s.hostAccess (.regRead .word off)).hostData = s.readRegBusy (regAt off) := by
  rw [State.hostAccess_regRead, State.hostRegRead_busy hbusy ho]

theorem setWidth_eq_or {n : Nat} {x y z : BitVec n} (h : x = y ∨ x = z) :
    x.setWidth 32 = y.setWidth 32 ∨ x.setWidth 32 = z.setWidth 32 :=
  h.imp (congrArg _) (congrArg _)

/-- Settles O57: each field is read as seen before or after the block's turn, and STATUS by its
fields. -/
theorem registerReadsWhileBusy : Obligations.RegisterReadsWhileBusy := by
  intro s t hbusy hturn
  have hafter := State.afterCommand_eq hturn
  refine ⟨?retired, ?dotres, ?n, ?mr, ?nr, ?id, ?ctrl, ?command, ?status, ?frame⟩
  case frame =>
    intro off ho
    exact ⟨_, _, State.hostRegRead_busy hbusy ho⟩
  case command =>
    intro i
    rw [State.hostRegRead_busy_data hbusy (offset_cmd_aligned i), regAt_cmd]
    rfl
  case status =>
    intro x hx
    rw [State.hostRegRead_busy_data hbusy rfl] at hx
    obtain ⟨h0, h1, h2, h3, h8, h16, h24⟩ := packStatus_fields
      (s.seen 0 s.fopc t.fopc) (s.seen 1 s.cause t.cause) (s.seen 2 s.herr t.herr)
      (s.seen 3 s.fault t.fault) true
    have hpacked : x = packStatus (s.seen 0 s.fopc t.fopc) (s.seen 1 s.cause t.cause)
      (s.seen 2 s.herr t.herr) (s.seen 3 s.fault t.fault) true := by
      rw [hx, ← hafter]
      rfl
    rw [hpacked, h0, h1, h2, h3, h8, h16, h24]
    exact ⟨rfl, s.seen_eq_or _ _ _, s.seen_eq_or _ _ _, rfl, s.seen_eq_or _ _ _,
      s.seen_eq_or _ _ _, rfl⟩
  all_goals rw [State.hostRegRead_busy_data hbusy rfl]
  case retired => exact hafter ▸ s.seen_eq_or 4 _ _
  case dotres => exact hafter ▸ setWidth_eq_or (s.seen_eq_or 5 _ _)
  case n => exact hafter ▸ setWidth_eq_or (s.seen_eq_or 6 _ _)
  case mr => exact hafter ▸ setWidth_eq_or (s.seen_eq_or 7 _ _)
  case nr => exact hafter ▸ setWidth_eq_or (s.seen_eq_or 8 _ _)
  case id => rfl
  case ctrl => rfl

/-! ### Resets during a command (70_reset_and_hazards R262, R263) -/

/-- Settles O59: a soft reset while BUSY = 1 only sets the pending bit, and the block's turn ends
with the reset. -/
theorem softResetWaitsForTheCommand : Obligations.SoftResetWaitsForTheCommand := by
  intro s t v hbusy hwaits hsrst
  refine ⟨?note, fun hrun => ⟨?reset, rfl, t.resetRegisters_status, rfl⟩⟩
  case note =>
    rw [State.hostAccess_regWrite, State.hostRegWrite_ctrl,
      State.writeCtrl_softReset_busy hsrst hbusy]
  case reset =>
    obtain ⟨_, hpending, _⟩ := State.runCommand_keeps hrun
    rw [step_of_runCommand (s := { s with srstPending := true }) hwaits hbusy hrun,
      State.applyPendingReset_of_pending hpending]

/-- Settles O60: rst_n leaves the mixed memory, each byte of which is the old or the new one, and
resets every register. -/
theorem hardResetWhileBusyMixesBytes : Obligations.HardResetWhileBusyMixesBytes := by
  intro s t hwf hbusy hturn
  refine ⟨(s.mixedWith t).resetRegisters, State.hardReset_busy hbusy hturn, rfl, rfl, rfl, rfl, rfl,
    State.resetRegisters_status _, rfl, rfl, rfl, rfl, rfl, State.resetRegisters_cmd_get _,
    State.accCell_resetRegisters _, rfl, rfl, fun a => ?_⟩
  have hmix := Memory.read_mix (Config.freeLanded s.freeTick) (new := t.dmem) hwf a
  split at hmix
  case isTrue => exact .inr hmix
  case isFalse => exact .inl hmix

end Sys2Proof.Machine
end
